-- ==== Sys2Proof/Word.lean ====
section
/-! DEFINITION. The word types of the machine: data words and bytes, 24-bit program locations, program addresses. -/

namespace Sys2Proof

/-- A 16-bit register or data word (00 R7). -/
abbrev Word := BitVec 16

/-- A byte of data space (20 R80). -/
abbrev Byte := BitVec 8

/-- The content of one program-memory location (20 R81). -/
abbrev Word24 := BitVec 24

/-- A program address as the program counter holds it, PC<22:0> (10 R24). -/
abbrev ProgAddr := BitVec 23

end Sys2Proof
end

