-- ==== Sys2Proof/Syntax.lean ====
section
/-! DEFINITION. The instructions: one constructor for each row of spec/opcode_table.json (30 R117). -/

namespace Sys2Proof

/-- The operand of `PWRSAV` (30 R116): 0 selects Sleep, 1 selects Idle. -/
inductive PowerSave where
  | sleep
  | idle
  deriving DecidableEq, Repr

/-- The instruction set of 30 R117. -/
inductive Instr where
  /-- `DISI #k` (40 R131). -/
  | disi (k : BitVec 14)
  /-- `RETFIE` (40 R135). -/
  | retfie
  /-- `RESET` (40 R138). -/
  | reset
  /-- `PWRSAV #m` (40 R139). -/
  | pwrsav (m : PowerSave)
  /-- `GOTO addr`, an even program address (40 R140). -/
  | goto (addr : ProgAddr)
  /-- `NOP`; the word's low 16 bits are ignored (40 R141). -/
  | nop (ignored : Word)
  /-- `MOV #k, Wd` (41 R182). -/
  | movLit (k : Word) (d : BitVec 4)
  /-- `MOV Ws, f`, an even data address (41 R183). -/
  | movWsF (src : BitVec 4) (f : Word)
  deriving DecidableEq, Repr

end Sys2Proof
end

