-- ==== Sys2Proof/WellFormed.lean ====
section
/-! DEFINITION. Which instructions an encoding can express. -/

namespace Sys2Proof

/-- An instruction is well formed when its encoding can express it: a `GOTO` target is an even program address
(30 R116, "23-bit even program address" of 40 R140) and the address of `MOV Ws, f` is even (30 R116). -/
def Instr.wellFormed : Instr → Bool
  | .disi _ => true
  | .retfie => true
  | .reset => true
  | .pwrsav _ => true
  | .goto addr => !addr.getLsbD 0
  | .nop _ => true
  | .movLit _ _ => true
  | .movWsF _ f => !f.getLsbD 0

end Sys2Proof
end

