-- ==== Sys2Proof/Decode.lean ====
section
/-! DEFINITION. Decoding of program-memory words into instructions, total and rejecting by name, and the encoder
(30 R114-R118). The encodings are the spec's general knowledge: log 34. -/

namespace Sys2Proof

/-- Why the decoder rejects a list of program-memory words. -/
inductive DecodeError where
  /-- There is no word to decode. -/
  | noWord
  /-- The first word matches no row of the opcode table (30 R118). -/
  | noRow (w : Word24)
  /-- A `GOTO` whose second word is not there. -/
  | noSecondWord (w : Word24)
  /-- A `GOTO` whose second word does not match (30 R117: "the word at pc + 2 must satisfy word2"). -/
  | badSecondWord (w1 w2 : Word24)
  deriving DecidableEq, Repr

/-- Does the word match a row (30 R117)? -/
def matchesRow (w mask value : Word24) : Bool := w &&& mask == value

/-- The target of a two-word `GOTO`: n[22:16] :: n[15:1] :: 0 (30 R116). -/
def gotoTarget (w1 w2 : Word24) : ProgAddr :=
  w2.extractLsb' 0 7 ++ w1.extractLsb' 1 15 ++ 0#1

/-- The data address of `MOV Ws, f`: 2 * f (30 R116). -/
def fileAddress (w : Word24) : Word := w.extractLsb' 4 15 ++ 0#1

/-- `PWRSAV`'s operand bit (30 R116). -/
def powerSaveOf (w : Word24) : PowerSave := if w.getLsbD 0 then .idle else .sleep

/-- Decode the instruction at the head of a list of program-memory words; the answer has the words that follow it. -/
def decode : List Word24 → Except DecodeError (Instr × List Word24)
  | [] => .error .noWord
  | w :: rest =>
    if matchesRow w 0xFFC000#24 0xFC0000#24 then .ok (.disi (w.extractLsb' 0 14), rest)
    else if matchesRow w 0xFFFFFF#24 0x064000#24 then .ok (.retfie, rest)
    else if matchesRow w 0xFFFFFF#24 0xFE0000#24 then .ok (.reset, rest)
    else if matchesRow w 0xFFFFFE#24 0xFE4000#24 then .ok (.pwrsav (powerSaveOf w), rest)
    else if matchesRow w 0xFF0001#24 0x040000#24 then
      match rest with
      | [] => .error (.noSecondWord w)
      | w2 :: rest' =>
        if matchesRow w2 0xFFFF80#24 0x000000#24 then .ok (.goto (gotoTarget w w2), rest')
        else .error (.badSecondWord w w2)
    else if matchesRow w 0xFF0000#24 0x000000#24 then .ok (.nop (w.extractLsb' 0 16), rest)
    else if matchesRow w 0xF00000#24 0x200000#24 then
      .ok (.movLit (w.extractLsb' 4 16) (w.extractLsb' 0 4), rest)
    else if matchesRow w 0xF80000#24 0x880000#24 then
      .ok (.movWsF (w.extractLsb' 0 4) (fileAddress w), rest)
    else .error (.noRow w)

/-- The words of an instruction, from the same encodings (30 R115, R117). -/
def encode : Instr → List Word24
  | .disi k => [0b1111110000#10 ++ k]
  | .retfie => [0x064000#24]
  | .reset => [0xFE0000#24]
  | .pwrsav .sleep => [0xFE4000#24]
  | .pwrsav .idle => [0xFE4001#24]
  | .goto addr => [0x04#8 ++ addr.extractLsb' 1 15 ++ 0#1, 0#17 ++ addr.extractLsb' 16 7]
  | .nop ignored => [0x00#8 ++ ignored]
  | .movLit k d => [0b0010#4 ++ k ++ d]
  | .movWsF src f => [0b10001#5 ++ f.extractLsb' 1 15 ++ src]

/-- How many 24-bit words an instruction occupies (30 R114). -/
def Instr.words : Instr → Nat
  | .goto _ => 2
  | _ => 1

/-- The program-memory words of an instruction whose bits are `w`, bit 0 the least significant bit of the first word,
every bit from `nbits` on taken as 0; the longest instruction has two words. -/
def tableWords (nbits w : Nat) : List Word24 :=
  [BitVec.ofNat 24 (w % 2 ^ nbits), BitVec.ofNat 24 (w % 2 ^ nbits / 2 ^ 24)]

/-- What the decoder reads from an instruction whose bits are `w`, numbered as spec/opcode_table.json numbers them. -/
def decodeTableWord (nbits w : Nat) : Option Instr :=
  match decode (tableWords nbits w) with
  | .ok (i, _) => some i
  | .error _ => none

end Sys2Proof
end

