-- ==== Sys2Proof/Machine/Bits.lean ====
section
/-! DEFINITION. Bits and bytes of words, and the registers of an array by number. -/

namespace Sys2Proof.Machine

/-- The word with bit `i` at `b` (00 R7). -/
def setBitTo (v : Word) (i : Nat) (b : Bool) : Word :=
  if b then v ||| (1#16 <<< i) else v &&& ~~~(1#16 <<< i)

/-- The bits of `mask` from `new`, the others from `old`: a software write to `R/W` bits (41 R160). -/
def merge (old new mask : Word) : Word := (old &&& ~~~mask) ||| (new &&& mask)

/-- Bits 7-0, the byte at the even address (20 R85). -/
def lowByte (v : Word) : Byte := v.extractLsb' 0 8

/-- Bits 15-8, the byte at the odd address (20 R85). -/
def highByte (v : Word) : Byte := v.extractLsb' 8 8

/-- The word with one of its bytes replaced (20 R85, R88). -/
def replaceByte (v : Word) (high : Bool) (b : Byte) : Word :=
  if high then b ++ lowByte v else highByte v ++ b

/-- The word with bit 0 at 0: W15 (10 R23) and SPLIM (41 R171). -/
def evenWord (v : Word) : Word := v &&& 0xFFFE#16

/-- The program address with bit 0 at 0: PC<0> is always 0 (10 R24). -/
def evenPc (a : ProgAddr) : ProgAddr := a &&& 0x7FFFFE#23

/-- Register `j` of an array of registers; there is none beyond its end. -/
def regAt {k : Nat} (v : Vector Word k) (j : Nat) : Word := v[j]?.getD 0

/-- The array with register `j` set. -/
def setReg {k : Nat} (v : Vector Word k) (j : Nat) (x : Word) : Vector Word k := v.setIfInBounds j x

end Sys2Proof.Machine
end

