-- ==== Sys2Proof/Config.lean ====
section
/-! DEFINITION. What an implementation fixes: the constants of 00 R6, the addresses of the registers, the parameters of
a device as plain data, and the free values (`draw` of 00 R10) as opaque constants. -/

namespace Sys2Proof.Config

/-- Program address of vector 0 of the Interrupt Vector Table (00 R6). -/
def ivtBase : Nat := 0x000004

/-- Program address of vector 0 of the Alternate Interrupt Vector Table (00 R6). -/
def aivtBase : Nat := 0x000084

/-- Program addresses are below this bound: PC<22:0> (10 R24). PRESUMED by the spec; log 18. Safe. -/
def progSpace : Nat := 0x800000

/-- W15 after reset and the stack underflow bound, `SP_RESET` (00 R6, 42 R196). -/
def stackBase : Word := 0x0800#16

/-- The first data address that is RAM; below it is register space (20 R84). PRESUMED by the spec; log 4. Unsafe. -/
def ramBase : Nat := 0x0800

/-- Instruction cycles of an exception entry (70 R330). -/
def entryCycles : Nat := 4

/-- Instruction cycles of `RETFIE` (70 R331). -/
def retfieCycles : Nat := 3

/-- `SOFT_TRAP_SKID_MAX` (00 R6, 60 R248). -/
def softTrapSkidMax : Nat := 2

/-- The 32 request numbers with a named flag, the default `IMPL_SOURCES` (60 R229). -/
def listedSources : List Nat :=
  [0, 1, 2, 3, 5, 6, 7, 8, 9, 10, 11, 12, 13, 14, 16, 17, 18, 19, 20, 21, 22, 27, 29, 30, 31, 32,
   37, 38, 39, 40, 41, 42]

/-! ### Free values: nothing is known of them (00 R10, log 39). Each is applied to the counter `draws` of the state. -/

/-- A 16-bit value no rule fixes. -/
opaque freeWord : Nat → Word

/-- A program address no rule fixes (log 18). -/
opaque freePc : Nat → ProgAddr

/-- A truth value no rule fixes. -/
opaque freeBool : Nat → Bool

/-- A 14-bit count no rule fixes (41 R170). -/
opaque freeCount : Nat → BitVec 14

/-- An accumulator value no rule fixes (10 R67). -/
opaque freeAcc : Nat → BitVec 40

/-- What data memory holds after a device reset: unspecified (10 R69, log 14). -/
opaque freeCells : Nat → List Host.Cell

/-- Whether a takeable request is deferred where 60 R247 and R248 leave it open (log 26). -/
opaque freeDefer : Nat → Bool

/-- Whether a trap request wakes the CPU from Sleep or Idle, left open by 93 U10 (log 25). -/
opaque freeTrapWakes : Nat → Bool

/-- Whether arbitration still sees the old priorities at the boundary after a hazardous write (93 U8, log 29). -/
opaque freeOldPriorities : Nat → Bool

/-- Whether a deferred interrupt is entered although it is no longer takeable (70 R321, log 26). -/
opaque freeLateEntry : Nat → Bool

/-! ### The parameters of a device -/

/-- `cycles(step)` of each instruction of the opcode table but `RETFIE`, whose count is fixed (00 R6, 92 D16, log 33). -/
structure Cycles where
  disi : Nat
  reset : Nat
  pwrsav : Nat
  goto : Nat
  nop : Nat
  movLit : Nat
  movWsF : Nat
  deriving DecidableEq, Repr

/-- The data addresses `ADDR_*` of the registers that the source names without one (00 R6, 92 D24, log 4). -/
structure SfrAddresses where
  sr : Nat
  corcon : Nat
  disicnt : Nat
  splim : Nat
  rcon : Nat
  osccon : Nat
  deriving DecidableEq, Repr

/-- The parameters that 00 R6 leaves to the device, as plain data: a range (lo, hi) holds the addresses from lo up to
but not hi. The step never changes them (10 R20 "Not state but parameters"; log 3). -/
structure Device where
  /-- `IMPL_SOURCES`, as far as listed in 60 R229. -/
  sources : List Nat
  /-- `PROG_IMPL`. -/
  prog : List (Nat × Nat)
  /-- `DATA_IMPL`. -/
  data : List (Nat × Nat)
  /-- The Y space of the `MAC` class; the rest of data space is X space (20 R84). -/
  ySpace : List (Nat × Nat)
  /-- `ADDR_SR` to `ADDR_OSCCON`. -/
  addresses : SfrAddresses
  cycles : Cycles
  deriving DecidableEq, Repr

/-- The defaults of `ADDR_*` (10 R21). PRESUMED by the spec; log 4. Unsafe where a run starts at `State.reset`. -/
def defaultAddresses : SfrAddresses where
  sr := 0x0042
  corcon := 0x0044
  disicnt := 0x0052
  splim := 0x0020
  rcon := 0x0740
  osccon := 0x0742

/-- The device that `State.reset` takes. It satisfies what 95 part 3 says of its own ("`PROG_IMPL` is true below
0x001000 and false at 0x7FFFFE", "`DATA_IMPL` is true for 0x0000-0x0FFF") and its cycle counts, and implements every
other address. DESIGN CHOICE, log 3 and log 33. Unsafe where a run starts at `State.reset`. -/
def referenceDevice : Device where
  sources := listedSources
  prog := [(0, 0x7FFFFE)]
  data := [(0, 0x10000)]
  ySpace := []
  addresses := defaultAddresses
  cycles := { disi := 1, reset := 1, pwrsav := 1, goto := 2, nop := 1, movLit := 1, movWsF := 1 }

end Sys2Proof.Config
end

