-- ==== Sys2Proof/Machine/Inputs.lean ====
section
/-! DEFINITION. What reaches the machine from outside its own program: the events of 00 R12, the CPU's scheduling
choices, and the effects of instructions that the opcode table does not list. All of it is plain data. -/

namespace Sys2Proof.Machine

/-- The direction of a pin's edge (60 R232). -/
inductive Edge where
  | rising
  | falling
  deriving DecidableEq, Repr

/-- The two accumulators (10 R67). -/
inductive Acc where
  | a
  | b
  deriving DecidableEq, Repr

/-- The two data spaces of the `MAC` class (20 R84). -/
inductive DataSpace where
  | x
  | y
  deriving DecidableEq, Repr

/-- How an instruction of the CPU core forms an effective address. -/
inductive Pointer where
  /-- A literal address, or one held in a register other than W15. -/
  | direct (a : Word)
  /-- W15 plus a signed offset: a W15-based address (42 R195-R197). -/
  | w15 (offset : Int)
  /-- W15, which then moves up by 2: a push (10 R23, log 17). -/
  | push
  /-- W15 after it moved down by 2: a pop (10 R23, log 17). -/
  | pop
  deriving DecidableEq, Repr

/-- One effect of an instruction of the CPU core that the opcode table does not list (00 R12, 42 R190, log 2). -/
inductive CoreEffect where
  /-- A working register takes a result. -/
  | setW (d : BitVec 4) (v : Word)
  /-- A word read into a working register. -/
  | readWord (p : Pointer) (d : BitVec 4)
  /-- A byte read into a working register, whose upper byte becomes 0 (DESIGN CHOICE, log 2: the spec is silent there). -/
  | readByte (p : Pointer) (d : BitVec 4)
  /-- A word write. -/
  | writeWord (p : Pointer) (v : Word)
  /-- A byte write. -/
  | writeByte (p : Pointer) (v : Byte)
  /-- A bit manipulation instruction: one bit of the word at the address is set or cleared (30 R122, 42 R205). -/
  | setBit (p : Pointer) (b : BitVec 4) (value : Bool)
  /-- A data fetch of the `MAC` class (42 R206). -/
  | macFetch (space : DataSpace) (a : Word) (d : BitVec 4)
  /-- An accumulator result, with a carry-out of bit 31 and of bit 39 (42 R200). -/
  | accResult (x : Acc) (v : BitVec 40) (carry31 carry39 : Bool)
  /-- `SFTAC` with its shift value and the shifted accumulator (42 R203). -/
  | sftac (x : Acc) (count : Int) (v : BitVec 40)
  /-- The first iteration of a divide, with its results (42 R204). -/
  | divide (divisor quotient remainder : Word) (dq dr : BitVec 4)
  /-- The flags of SR that the instruction sets: every bit but OA, OB, OAB and IPL; SAB follows SA and SB (10 R25). -/
  | flags (v : Word)
  /-- The DO-loop nesting level, CORCON.DL (10 R28). -/
  | doLevel (n : BitVec 3)
  deriving DecidableEq, Repr

/-- Where execution goes after an instruction of the CPU core. -/
inductive CoreNext where
  /-- On to the next instruction, this one having so many words (none: a `REPEAT` iteration, 60 R246). -/
  | fallThrough (words : Nat)
  /-- A `BRA #literal`, whose target is checked (42 R207). -/
  | literal (target : ProgAddr)
  /-- A computed target, such as `RETURN`'s, checked only when execution continues there (42 R207). -/
  | computed (target : ProgAddr)
  deriving DecidableEq, Repr

/-- An instruction of the CPU core that the opcode table does not list. -/
structure CoreStep where
  /-- `cycles(step)`; at least one is charged (00 R6). -/
  cycles : Nat
  effects : List CoreEffect
  next : CoreNext
  deriving DecidableEq, Repr

/-- The choices of one turn of the CPU. A choice that the turn has no use for (a deferral where nothing is requested, an
`OscFail` with an instruction where a request is entered instead) is passed over. -/
structure Turn where
  /-- Let one more instruction complete before a takeable request, where 60 R247 and R248 allow it (log 26). -/
  defer : Bool
  /-- Further cycles of this turn's instruction, such as stalls and PSV accesses (70 R332); `RETFIE` and an exception
  entry, whose cycles are fixed (92 D16), take none. -/
  stall : Nat
  /-- `OscFail` is delivered together with this turn's instruction (60 R227). -/
  oscFail : Bool
  /-- A trap request wakes the CPU from Sleep or Idle (93 U10, log 25). -/
  trapWakes : Bool
  /-- Arbitration sees the old priorities after a hazardous priority write (93 U8, log 29). -/
  oldPriorities : Bool
  /-- An interrupt deferred at the boundary before is entered although arbitration returns none now (70 R321, log 26). -/
  lateEntry : Bool
  /-- What the CPU core does at a word the opcode table does not list (30 R118, log 2). -/
  core : Option CoreStep
  deriving DecidableEq, Repr

/-- One entry of the schedule: an event of the environment, or a turn of the CPU (00 R12, log 1). -/
inductive Input where
  /-- The CPU takes a turn. -/
  | cpu (t : Turn)
  /-- `Tick` on its own, delivered only while the CPU sleeps (00 R12). -/
  | tick
  /-- `IrqEvent(n)` (60 R230). -/
  | irq (n : Nat)
  /-- `PinEdge(x, dir)` (60 R232). -/
  | pinEdge (x : Fin 3) (dir : Edge)
  /-- `OscFail` (60 R227). -/
  | oscFail
  /-- `DeviceReset(PowerOn)` (70 R301). -/
  | powerOnReset
  /-- `DeviceReset(Other)` (70 R301). -/
  | otherReset
  deriving DecidableEq, Repr

end Sys2Proof.Machine
end

