-- ==== Sys2Proof/Machine/State.lean ====
section
/-! DEFINITION. The state of the machine as plain data, the reasons a step can stop, and the state after reset. -/

namespace Sys2Proof.Machine

/-- The modes of the CPU (10 R68). -/
inductive PMode where
  | run
  | sleep
  | idle
  deriving DecidableEq, Repr

/-- The interrupt skid of 10 R68: what 60 R247 asks of the boundary before (log 26). -/
inductive IrqSkid where
  /-- Arbitration returned none at the boundary before, also where a deferred interrupt was entered there all the same:
  an interrupt's entry may be deferred once. -/
  | fresh
  /-- Arbitration returned a request at the boundary before, which was entered, or a soft trap that was deferred: no
  interrupt may be deferred. -/
  | used
  /-- This interrupt was deferred at the boundary before: whatever arbitration returns now is entered, and where it
  returns none this entry may still happen (70 R321). -/
  | deferred (vector level : Nat)
  /-- The CPU just woke: whatever arbitration returns is entered with the pc as it is (60 R271). -/
  | woken
  deriving DecidableEq, Repr

/-- Since when INTTREG may be relied on (60 R254, log 28). -/
inductive InttregHold where
  /-- Since reset. -/
  | atReset
  /-- Since the entry of the interrupt of this request number. -/
  | source (n : Nat)
  /-- Not at all: its value is free. -/
  | lost
  deriving DecidableEq, Repr

/-- Why a device reset happens (70 R300). -/
inductive ResetKind where
  | powerOn
  | software
  | trapConflict
  | other
  deriving DecidableEq, Repr

/-- Why the machine stops with a fault. -/
inductive Fault where
  /-- A hard trap was raised while the CPU priority equals its level (60 R245, 92 D11): raised by the operation that
  evaluates a hard trap. The spec gives no next state. Safe. -/
  | unacknowledgeableHardTrap (level : Nat)
  deriving DecidableEq, Repr

/-- Why a step has no meaning. -/
inductive Refusal where
  /-- An instruction whose arm of `exec` has no meaning yet. Raised by `exec` alone. Safe. -/
  | notModelled (mnemonic : String)
  /-- The word fetched matches no row of the opcode table and the core agent supplies no effects (30 R118). Raised by
  the CPU's turn. Safe. -/
  | undecodable (word : Word24)
  /-- The words fetched are a `GOTO` whose second word does not match (30 R117). Raised by the CPU's turn. Safe. -/
  | badGotoPair (word1 word2 : Word24)
  /-- A write to a data address that the device does not implement (41 R183). Raised by the data-space writes of an
  instruction. Safe. -/
  | unimplementedDataWrite (address : Word)
  /-- The location of the vector itself is not implemented (42 R209). Raised by the exception entry. Safe. -/
  | unimplementedVector (address : Nat)
  deriving DecidableEq, Repr

/-- The whole state (10 R20). INVENTORY.md lists each field with its rule. -/
structure State where
  /-- PC<22:0> (10 R24). -/
  pc : ProgAddr
  /-- W0 to W15; W15 is the stack pointer (10 R22, R23). -/
  w : Vector Word 16
  /-- SR (10 R25). -/
  sr : Word
  /-- CORCON (10 R28). -/
  corcon : Word
  /-- INTCON1 (10 R31). -/
  intcon1 : Word
  /-- INTCON2 (10 R40). -/
  intcon2 : Word
  /-- IFS0 to IFS2 (10 R44-R46). -/
  ifs : Vector Word 3
  /-- IEC0 to IEC2 (10 R47-R49). -/
  iec : Vector Word 3
  /-- IPC0 to IPC10 (10 R51-R61). -/
  ipc : Vector Word 11
  /-- INTTREG (10 R62). -/
  inttreg : Word
  /-- DISICNT (10 R63). -/
  disicnt : BitVec 14
  /-- SPLIM (10 R64). -/
  splim : Word
  /-- RCON<15>, TRAPR (10 R65). -/
  trapr : Bool
  /-- OSCCON<3>, CF (10 R66). -/
  cf : Bool
  /-- Accumulator A (10 R67). -/
  accA : BitVec 40
  /-- Accumulator B (10 R67). -/
  accB : BitVec 40
  /-- True once a word is written to SPLIM (10 R68). -/
  splimArmed : Bool
  /-- Run, Sleep or Idle (10 R68). -/
  pmode : PMode
  /-- The last sampled levels of INT0 to INT2 (10 R68). -/
  pin : Vector Bool 3
  /-- The temporary buffer: PC (10 R68). -/
  tempPc : ProgAddr
  /-- The temporary buffer: SRL (10 R68). -/
  tempSrl : Byte
  /-- `irq_skid` (10 R68). -/
  irqSkid : IrqSkid
  /-- `trap_skid` of the stack error: cycles since it became requestable, counted up to 2 (10 R68, 60 R248). -/
  stkAge : Nat
  /-- `trap_skid` of the arithmetic error. -/
  mathAge : Nat
  /-- Data RAM, in canonical form (20 R84). -/
  data : List Host.Cell
  /-- Program memory, in canonical form: byte j of the location at the even address a has the key 2 * a + j (20 R81). -/
  prog : List Host.Cell
  /-- The model's own: since when INTTREG may be relied on (log 28). -/
  inttregHold : InttregHold
  /-- The model's own: the priorities before a hazardous write, until the next boundary (log 29). -/
  ipcStale : Option (Vector Word 11)
  /-- The model's own: a hard-trap conflict has been found, and its reset is the CPU's next step (00 R12, 60 R245,
  log 27). -/
  conflictDue : Bool
  /-- The model's own: what happens next (log 1). -/
  inputs : List Input
  /-- The model's own: the counter of free values drawn (log 39). -/
  draws : Nat
  /-- The model's own: the parameters of the device (log 3). -/
  device : Config.Device
  deriving DecidableEq, Repr

/-- The machine right after reset (10 R69). The values that the spec leaves unspecified are the model's: W0-W14 (log 8),
SPLIM (log 9), CF (log 10), the accumulators (log 11), the pins (log 12), the temporary buffer (log 13), the memories
(log 6, log 7). DESIGN CHOICE. Unsafe. -/
def State.reset : State where
  pc := 0
  w := #v[0, 0, 0, 0, 0, 0, 0, 0, 0, 0, 0, 0, 0, 0, 0, 0x0800]
  sr := 0x0000
  corcon := 0x0020
  intcon1 := 0x0000
  intcon2 := 0x0000
  ifs := #v[0x0000, 0x0000, 0x0000]
  iec := #v[0x0000, 0x0000, 0x0000]
  ipc := #v[0x4444, 0x4440, 0x4444, 0x0444, 0x4444, 0x0444, 0x4000, 0x4440, 0x0004, 0x4440, 0x0444]
  inttreg := 0x0000
  disicnt := 0
  splim := 0x0000
  trapr := false
  cf := false
  accA := 0
  accB := 0
  splimArmed := false
  pmode := .run
  pin := #v[false, false, false]
  tempPc := 0
  tempSrl := 0
  irqSkid := .fresh
  stkAge := 0
  mathAge := 0
  data := []
  prog := []
  inttregHold := .atReset
  ipcStale := none
  conflictDue := false
  inputs := []
  draws := 0
  device := Config.referenceDevice

end Sys2Proof.Machine
end

