-- ==== Sys2Proof/Machine/Flags.lean ====
section
/-! DEFINITION. The fields of SR, CORCON, INTCON1, INTCON2, IFSx, IECx and IPCx, and the flags a trap cause sets. -/

namespace Sys2Proof.Machine

/-! ### The CPU priority -/

/-- SR.IPL<2:0> (10 R26). -/
def State.ipl (s : State) : BitVec 3 := s.sr.extractLsb' 5 3

/-- CORCON.IPL3 (10 R29). -/
def State.ipl3 (s : State) : Bool := s.corcon.getLsbD 3

/-- The CPU priority level, 8 * IPL3 + IPL<2:0> (10 R30). -/
def State.cpuIpl (s : State) : Nat := (if s.ipl3 then 8 else 0) + s.ipl.toNat

/-- Hardware write of SR.IPL<2:0> (60 R253). -/
def State.withIpl (s : State) (l : BitVec 3) : State :=
  { s with sr := merge s.sr (l.setWidth 16 <<< 5) 0x00E0#16 }

/-- Hardware write of CORCON.IPL3 (60 R253, 40 R135). -/
def State.withIpl3 (s : State) (b : Bool) : State := { s with corcon := setBitTo s.corcon 3 b }

/-- SRL, SR<7:0> (00 R7). -/
def State.srl (s : State) : Byte := s.sr.extractLsb' 0 8

/-- Hardware write of SRL (40 R135). -/
def State.withSrl (s : State) (b : Byte) : State := { s with sr := s.sr.extractLsb' 8 8 ++ b }

/-! ### Control bits -/

/-- INTCON1.NSTDIS (10 R32). -/
def State.nstdis (s : State) : Bool := s.intcon1.getLsbD 15

/-- INTCON2.ALTIVT (10 R40). -/
def State.altivt (s : State) : Bool := s.intcon2.getLsbD 15

/-- INTCON2.DISI (10 R40). -/
def State.disiActive (s : State) : Bool := s.intcon2.getLsbD 14

/-- INTCON2.INTxEP (10 R40). -/
def State.edgePolarity (s : State) (x : Fin 3) : Bool := s.intcon2.getLsbD x

/-- Hardware write of INTCON2.DISI (40 R131, R133). -/
def State.withDisi (s : State) (b : Bool) : State := { s with intcon2 := setBitTo s.intcon2 14 b }

/-- INTCON1.OVATE or OVBTE (10 R34). -/
def State.overflowTrapEnabled (s : State) : Acc → Bool
  | .a => s.intcon1.getLsbD 10
  | .b => s.intcon1.getLsbD 9

/-- INTCON1.COVTE (10 R34). -/
def State.catastrophicTrapEnabled (s : State) : Bool := s.intcon1.getLsbD 8

/-! ### Accumulator status -/

/-- SR.OA or SR.OB (10 R27). -/
def State.accOverflowed (s : State) : Acc → Bool
  | .a => s.sr.getLsbD 15
  | .b => s.sr.getLsbD 14

/-- Hardware write of SR.OA or SR.OB; OAB follows as OA or OB (10 R25, R27, log 36). -/
def State.withAccOverflow (s : State) (x : Acc) (b : Bool) : State :=
  let sr := setBitTo s.sr (match x with | .a => 15 | .b => 14) b
  { s with sr := setBitTo sr 11 (sr.getLsbD 15 || sr.getLsbD 14) }

/-- The bits of SR that an instruction of the CPU core sets as its flags: all but OA, OB, OAB, SAB and IPL (10 R25). -/
def coreFlags : Word := 0x331F#16

/-- An instruction of the CPU core sets its flags; SAB follows as SA or SB (10 R25). -/
def State.withCoreFlags (s : State) (v : Word) : State :=
  let sr := merge s.sr v coreFlags
  { s with sr := setBitTo sr 10 (sr.getLsbD 13 || sr.getLsbD 12) }

/-- The CPU core sets the DO-loop nesting level CORCON.DL (10 R28). -/
def State.withDoLevel (s : State) (n : BitVec 3) : State :=
  { s with corcon := merge s.corcon (n.setWidth 16 <<< 8) 0x0700#16 }

/-- Saturation of the accumulator is enabled: SATA or SATB (10 R28, R67, log 36). -/
def State.saturates (s : State) : Acc → Bool
  | .a => s.corcon.getLsbD 7
  | .b => s.corcon.getLsbD 6

/-- 31-bit saturation of the accumulator: saturation with ACCSAT = 0 (10 R28, log 36). -/
def State.saturates31 (s : State) (x : Acc) : Bool := s.saturates x && !s.corcon.getLsbD 4

/-- The condition that keeps MATHERR set (41 R166, log 30). -/
def State.mathCausePersists (s : State) : Bool :=
  (s.accOverflowed .a && s.overflowTrapEnabled .a) || (s.accOverflowed .b && s.overflowTrapEnabled .b)

/-! ### Traps -/

/-- The implemented traps (60 R221). -/
inductive Trap where
  | oscillator
  | address
  | stack
  | math
  deriving DecidableEq, Repr

/-- The traps from the highest level down (60 R221, R222). -/
def Trap.all : List Trap := [.oscillator, .address, .stack, .math]

/-- The fixed level of a trap (60 R221). -/
def Trap.level : Trap → Nat
  | .oscillator => 14
  | .address => 13
  | .stack => 12
  | .math => 11

/-- The vector number of a trap (60 R221). -/
def Trap.vector : Trap → Nat
  | .oscillator => 1
  | .address => 2
  | .stack => 3
  | .math => 4

/-- The bit of INTCON1 that requests a trap (60 R221). -/
def Trap.flagBit : Trap → Nat
  | .oscillator => 1
  | .address => 3
  | .stack => 2
  | .math => 4

/-- Hard traps have level 13 to 15 (60 R224). -/
def Trap.hard (t : Trap) : Bool := decide (13 ≤ t.level)

/-- The request flag of a trap, F(t) of 60 R226. -/
def State.trapFlag (s : State) (t : Trap) : Bool := s.intcon1.getLsbD t.flagBit

/-- trap_requested(t) of 60 R226. -/
def State.trapRequested (s : State) (t : Trap) : Bool := s.trapFlag t && decide (s.cpuIpl < t.level)

/-- Set one bit of INTCON1: what `raise` does (42 R190). -/
def State.setIntcon1 (s : State) (bit : Nat) : State := { s with intcon1 := setBitTo s.intcon1 bit true }

/-- Set the request flag of a trap. -/
def State.flagTrap (s : State) (t : Trap) : State := s.setIntcon1 t.flagBit

/-- `raise StackError` (42 R198). -/
def State.raiseStackError (s : State) : State := s.flagTrap .stack

/-- An arithmetic cause: its own flag of INTCON1 and MATHERR (42 R199). -/
def State.raiseMathError (s : State) (causeBit : Nat) : State := (s.setIntcon1 causeBit).flagTrap .math

/-- The flag bit of an accumulator overflow trap, OVAERR or OVBERR (10 R33). -/
def overflowFlagBit : Acc → Nat
  | .a => 14
  | .b => 13

/-- The flag bit of a catastrophic overflow trap, COVAERR or COVBERR (10 R33). -/
def catastrophicFlagBit : Acc → Nat
  | .a => 12
  | .b => 11

/-- The flag bit of an invalid shift, SFTACERR (10 R35). -/
def shiftFlagBit : Nat := 7

/-- The flag bit of a divide by zero, DIV0ERR (10 R35). -/
def divideFlagBit : Nat := 6

/-- What raises a soft trap (42 R195-R204). -/
inductive SoftCause where
  | stack
  | overflow (x : Acc)
  | catastrophic (x : Acc)
  | shift
  | divide
  deriving DecidableEq, Repr

/-- `raise` of a soft trap's cause (42 R198, R199). -/
def State.raiseCause (s : State) : SoftCause → State
  | .stack => s.raiseStackError
  | .overflow x => s.raiseMathError (overflowFlagBit x)
  | .catastrophic x => s.raiseMathError (catastrophicFlagBit x)
  | .shift => s.raiseMathError shiftFlagBit
  | .divide => s.raiseMathError divideFlagBit

/-- Every cause of a list is raised (42 R212). -/
def State.raiseCauses (s : State) : List SoftCause → State
  | [] => s
  | c :: rest => (s.raiseCause c).raiseCauses rest

/-! ### Interrupt sources -/

/-- Is the request number one of `IMPL_SOURCES` (00 R6, 60 R229)? -/
def implementsSource (d : Config.Device) (n : Nat) : Bool :=
  Config.listedSources.contains n && d.sources.contains n

/-- The flag IF[n] (10 R41). -/
def State.irqFlag (s : State) (n : Nat) : Bool := (regAt s.ifs (n / 16)).getLsbD (n % 16)

/-- The enable IE[n] (10 R41). -/
def State.irqEnable (s : State) (n : Nat) : Bool := (regAt s.iec (n / 16)).getLsbD (n % 16)

/-- The priority IP[n] in an array of IPC registers (10 R41). -/
def priorityIn (ipc : Vector Word 11) (n : Nat) : Nat := ((regAt ipc (n / 4)).extractLsb' (4 * (n % 4)) 3).toNat

/-- The priority IP[n] (10 R41). -/
def State.irqPriority (s : State) (n : Nat) : Nat := priorityIn s.ipc n

/-- Set the flag IF[n]: what `IrqEvent(n)` does to an implemented source (60 R230). -/
def State.setIrqFlag (s : State) (n : Nat) : State :=
  if implementsSource s.device n then
    { s with ifs := setReg s.ifs (n / 16) (setBitTo (regAt s.ifs (n / 16)) (n % 16) true) }
  else s

/-- The bits of IFS`k` and IEC`k` that the device implements: one for each implemented source (10 R41, log 3). -/
def flagMask (d : Config.Device) (k : Nat) : Word :=
  (List.range 16).foldl (fun m b => setBitTo m b (implementsSource d (16 * k + b))) 0

/-- The bits of IPC`j` that the device implements: three for each implemented source (10 R41, R50, log 3). -/
def priorityMask (d : Config.Device) (j : Nat) : Word :=
  (List.range 4).foldl (fun m q => if implementsSource d (4 * j + q) then m ||| (7#16 <<< (4 * q)) else m) 0

end Sys2Proof.Machine
end

