-- ==== Sys2Proof/Machine/Memory.lean ====
section
/-! DEFINITION. Memories as lists of (address, byte) pairs in one canonical form, and the reads and writes over them. -/

namespace Sys2Proof.Machine

/-- What a byte that nothing has written reads as. DESIGN CHOICE, log 6 and log 7. Unsafe. -/
def unlistedByte : Byte := 0x00#8

/-- The byte at an address. -/
def readByte : List Host.Cell → Nat → Byte
  | [], _ => unlistedByte
  | (k, v) :: rest, a => if k = a then v else readByte rest a

/-- Write one byte. The canonical form is kept: the list stays rising, and a byte that reads as an unlisted one does is
not listed. -/
def writeByte : List Host.Cell → Nat → Byte → List Host.Cell
  | [], a, v => if v = unlistedByte then [] else [(a, v)]
  | (k, x) :: rest, a, v =>
    if a < k then (if v = unlistedByte then (k, x) :: rest else (a, v) :: (k, x) :: rest)
    else if a = k then (if v = unlistedByte then rest else (a, v) :: rest)
    else (k, x) :: writeByte rest a v

/-- The canonical form from an address on: strictly rising, no entry that reads as an unlisted byte. -/
def wfFrom (lo : Nat) : List Host.Cell → Bool
  | [] => true
  | (k, v) :: rest => decide (lo ≤ k) && decide (v ≠ unlistedByte) && wfFrom (k + 1) rest

/-- The canonical form of a memory. -/
def Memory.wf (m : List Host.Cell) : Bool := wfFrom 0 m

/-- Every listed address is in the range from `lo` up to but not `hi`. -/
def inRange (lo hi : Nat) (m : List Host.Cell) : Bool := m.all fun c => decide (lo ≤ c.1) && decide (c.1 < hi)

/-- The little-endian word at an even address (20 R85). -/
def readWord (m : List Host.Cell) (a : Nat) : Word := readByte m (a + 1) ++ readByte m a

/-- Write the little-endian word at an even address (20 R85). -/
def writeWord (m : List Host.Cell) (a : Nat) (v : Word) : List Host.Cell :=
  writeByte (writeByte m a (v.extractLsb' 0 8)) (a + 1) (v.extractLsb' 8 8)

/-- The memory that lists these bytes as far as they are data RAM: any canonical content of the RAM comes of some list
(10 R69, log 14). -/
def ramOf : List Host.Cell → List Host.Cell
  | [] => []
  | c :: rest =>
    if Config.ramBase ≤ c.1 ∧ c.1 < 0x10000 then writeByte (ramOf rest) c.1 c.2 else ramOf rest

/-- The key of byte `j` of the program location that the address `a` names (20 R81). -/
def progKey (a j : Nat) : Nat := 4 * (a / 2) + j

/-- `ProgRead24(a)`: the 24-bit content of a program-memory location (20 R82). -/
def readProg (m : List Host.Cell) (a : Nat) : Word24 :=
  readByte m (progKey a 2) ++ readByte m (progKey a 1) ++ readByte m (progKey a 0)

/-- Place a 24-bit content at a program-memory location. No instruction does (20 R82); a loader does (log 38). -/
def writeProg (m : List Host.Cell) (a : Nat) (v : Word24) : List Host.Cell :=
  writeByte (writeByte (writeByte m (progKey a 0) (v.extractLsb' 0 8)) (progKey a 1) (v.extractLsb' 8 8))
    (progKey a 2) (v.extractLsb' 16 8)

/-- Is the address in one of the ranges? -/
def inRanges (ranges : List (Nat × Nat)) (a : Nat) : Bool :=
  ranges.any fun r => decide (r.1 ≤ a) && decide (a < r.2)

end Sys2Proof.Machine
end

