-- ==== Sys2Proof/Machine/Operands.lean ====
section
/-! DEFINITION. Operands: the working registers, the program counter, and what stands at each data address. -/

namespace Sys2Proof.Machine

/-! ### Free values -/

/-- The state after `n` free values have been drawn (00 R10, log 39). -/
def State.drawn (s : State) (n : Nat) : State := { s with draws := s.draws + n }

/-! ### Implemented addresses -/

/-- `PROG_IMPL(a)` (00 R6); no address beyond PC<22:0> is implemented. -/
def State.progImpl (s : State) (a : Nat) : Bool :=
  decide (a < Config.progSpace) && inRanges s.device.prog a

/-- `DATA_IMPL(a)` (00 R6). -/
def State.dataImpl (s : State) (a : Word) : Bool := inRanges s.device.data a.toNat

/-- The address is in the Y space of the `MAC` class (20 R84). -/
def State.inYSpace (s : State) (a : Word) : Bool := inRanges s.device.ySpace a.toNat

/-! ### Working registers -/

/-- W`d` (10 R22). -/
def State.getW (s : State) (d : BitVec 4) : Word := s.w[d.toNat]'d.isLt

/-- W15, the stack pointer (10 R23). -/
def State.sp (s : State) : Word := s.w[15]

/-- W15 takes a value, its bit 0 staying 0 (10 R23). -/
def State.setSp (s : State) (v : Word) : State := { s with w := s.w.set 15 (evenWord v) }

/-- An effective address formed from W15 fails the stack checks (42 R195, R196). -/
def State.stackBad (s : State) (ea : Word) : Bool :=
  decide (ea < Config.stackBase) || (s.splimArmed && decide (s.splim < ea))

/-- The stack underflow check on the W15 that an instruction leaves, made once after an instruction that changed it (42
R196, 92 D30, log 19). -/
def State.checkSp (s : State) : State :=
  if s.sp < Config.stackBase then s.raiseStackError else s

/-- W`d` takes a value. W15 keeps its bit 0 at 0 (10 R23); it is checked when the instruction is over (42 R196). -/
def State.setW (s : State) (d : BitVec 4) (v : Word) : State :=
  if d = 15#4 then s.setSp v else { s with w := s.w.set d.toNat v d.isLt }

/-- W15 after an instruction that raised a trap: what it left there is free (42 R190, 93 U3, log 2, log 19). -/
def State.loseSp (s : State) : State := (s.setSp (Config.freeWord s.draws)).drawn 1

/-- The end of an instruction whose one write may be W15: a W15 below 0x0800 raises the stack error, and what stays in W15
is then free (42 R190, R196, log 19). -/
def State.settleSp (s : State) (wrote : Bool) : State :=
  if wrote && decide (s.sp < Config.stackBase) then s.raiseStackError.loseSp else s

/-! ### The program counter -/

/-- The pc takes a target; PC<0> is always 0 (10 R24). -/
def State.setPc (s : State) (a : ProgAddr) : State := { s with pc := evenPc a }

/-- `pc <- pc + k`. At the top of program space the spec states no value: it is free (10 R24, log 18). -/
def State.advance (s : State) (k : Nat) : State :=
  if s.pc.toNat + k < Config.progSpace then { s with pc := s.pc + BitVec.ofNat 23 k }
  else (s.setPc (Config.freePc s.draws)).drawn 1

/-! ### Data space -/

/-- The registers of data space (10 R21, R22). -/
inductive Sfr where
  | wReg (d : BitVec 4)
  | sr
  | corcon
  | intcon1
  | intcon2
  | ifs (k : Fin 3)
  | iec (k : Fin 3)
  | ipc (j : Fin 11)
  | inttreg
  | disicnt
  | splim
  | rcon
  | osccon
  deriving DecidableEq, Repr

/-- What stands at a data address. -/
inductive DataPlace where
  /-- A register the spec describes. -/
  | sfr (r : Sfr)
  /-- Register space that the spec does not describe (91 N12, log 5). -/
  | undescribed
  /-- Data RAM. -/
  | ram
  deriving DecidableEq, Repr

/-- The addresses that Table 28-3 gives (10 R21). -/
def tableSfrs : List (Nat × Sfr) :=
  [(0x0080, .intcon1), (0x0082, .intcon2), (0x0084, .ifs 0), (0x0086, .ifs 1), (0x0088, .ifs 2),
   (0x0094, .iec 0), (0x0096, .iec 1), (0x0098, .iec 2), (0x00A4, .ipc 0), (0x00A6, .ipc 1),
   (0x00A8, .ipc 2), (0x00AA, .ipc 3), (0x00AC, .ipc 4), (0x00AE, .ipc 5), (0x00B0, .ipc 6),
   (0x00B2, .ipc 7), (0x00B4, .ipc 8), (0x00B6, .ipc 9), (0x00B8, .ipc 10), (0x00E0, .inttreg)]

/-- The addresses that are parameters of the device (10 R21, 92 D24, log 4). -/
def deviceSfrs (m : Config.SfrAddresses) : List (Nat × Sfr) :=
  [(m.sr, .sr), (m.corcon, .corcon), (m.disicnt, .disicnt), (m.splim, .splim), (m.rcon, .rcon), (m.osccon, .osccon)]

/-- The parameters `ADDR_*` name six different even addresses of register space, none of them one of Table 28-3's. -/
def addressesOk (m : Config.SfrAddresses) : Bool :=
  let own := (deviceSfrs m).map Prod.fst
  own.all (fun a => decide (0x20 ≤ a) && decide (a < Config.ramBase) && decide (a % 2 = 0) &&
    !(tableSfrs.map Prod.fst).contains a) && decide own.Nodup

/-- What stands at the word of an address: W0-W15 at 0x0000-0x001E (10 R22), the registers of 10 R21, the rest of
register space, RAM (20 R84). Where a parameter `ADDR_*` names a place that is taken, what stood there stays (log 4). -/
def placeOf (d : Config.Device) (a : Word) : DataPlace :=
  let e := (evenWord a).toNat
  if e < 0x20 then .sfr (.wReg (BitVec.ofNat 4 (e / 2)))
  else if Config.ramBase ≤ e then .ram
  else match (tableSfrs ++ deviceSfrs d.addresses).lookup e with
    | some r => .sfr r
    | none => .undescribed

end Sys2Proof.Machine
end

