-- ==== Sys2Proof/Machine/Registers.lean ====
section
/-! DEFINITION. Software access to the registers: one rule for each register (41 R160-R173). -/

namespace Sys2Proof.Machine

/-! ### Reads (41 R160): no side effect, unimplemented bits read 0 -/

/-- A software read of a register. The bits of RCON and OSCCON that the spec does not give are free (log 15). -/
def State.readSfr (s : State) : Sfr → Word
  | .wReg d => s.getW d
  | .sr => s.sr
  | .corcon => s.corcon
  | .intcon1 => s.intcon1
  | .intcon2 => s.intcon2
  | .ifs k => s.ifs[k]
  | .iec k => s.iec[k]
  | .ipc j => s.ipc[j]
  | .inttreg => s.inttreg
  | .disicnt => s.disicnt.setWidth 16
  | .splim => s.splim
  | .rcon => setBitTo (Config.freeWord s.draws) 15 s.trapr
  | .osccon => setBitTo (Config.freeWord s.draws) 3 s.cf

/-! ### The writable bits (10 R25, R28, R31, R40) -/

/-- SR: N, OV, Z, C always, IPL<2:0> while nesting is enabled (10 R25, 41 R161). -/
def srWritable (nstdis : Bool) : Word := if nstdis then 0x000F#16 else 0x00EF#16

/-- CORCON: every implemented bit but DL and IPL3 (10 R28). -/
def corconWritable : Word := 0x18F7#16

/-- INTCON1: every implemented bit (10 R31). -/
def intcon1Writable : Word := 0xFFDE#16

/-- INTCON2: ALTIVT and INTxEP (10 R40). -/
def intcon2Writable : Word := 0x8007#16

/-! ### Word writes -/

/-- A word written to SR (41 R160, R161). -/
def State.writeSr (s : State) (v : Word) : State := { s with sr := merge s.sr v (srWritable s.nstdis) }

/-- A word written to CORCON: IPL3 can be cleared, not set (41 R162). -/
def State.writeCorcon (s : State) (v : Word) : State :=
  { s with corcon := setBitTo (merge s.corcon v corconWritable) 3 (s.ipl3 && v.getLsbD 3) }

/-- A word written to INTCON1: MATHERR is not cleared while its cause persists (41 R166-R169). A trap flag written from
0 to 1 becomes 1 (41 R167, log 22). -/
def State.writeIntcon1 (s : State) (v : Word) : State :=
  let math := v.getLsbD 4 || (s.trapFlag .math && s.mathCausePersists)
  { s with intcon1 := setBitTo (merge s.intcon1 v intcon1Writable) 4 math }

/-- A word written to INTCON2: DISI is read-only (41 R169). -/
def State.writeIntcon2 (s : State) (v : Word) : State := { s with intcon2 := merge s.intcon2 v intcon2Writable }

/-- A word written to an IFS register (41 R163). -/
def State.writeIfs (s : State) (k : Fin 3) (v : Word) : State :=
  { s with ifs := setReg s.ifs k (merge (regAt s.ifs k) v (flagMask s.device k)) }

/-- A word written to an IEC register (41 R164). -/
def State.writeIec (s : State) (k : Fin 3) (v : Word) : State :=
  { s with iec := setReg s.iec k (merge (regAt s.iec k) v (flagMask s.device k)) }

/-- The hazard of 70 R320: the write changes the priority of a source that is pending and enabled, and user interrupts
are not all disabled. -/
def State.hazardousPriorities (s : State) (j : Fin 11) (new : Vector Word 11) : Bool :=
  decide (s.cpuIpl < 7) && !s.disiActive &&
    (List.range 4).any fun q =>
      let n := 4 * j.val + q
      s.irqFlag n && s.irqEnable n && decide (priorityIn new n ≠ s.irqPriority n)

/-- A word written to an IPC register (41 R165). After a hazardous write the old priorities are kept for the next
boundary (70 R320, log 29). -/
def State.writeIpc (s : State) (j : Fin 11) (v : Word) : State :=
  let new := setReg s.ipc j (merge (regAt s.ipc j) v (priorityMask s.device j))
  { s with
    ipc := new
    ipcStale := if s.hazardousPriorities j new then s.ipcStale.or (some s.ipc) else s.ipcStale }

/-- A word written to DISICNT (41 R170). A non-zero value written while no `DISI` is active leaves a free count
(93 U15, log 23). -/
def State.writeDisicnt (s : State) (v : Word) : State :=
  let k := v.extractLsb' 0 14
  if s.disiActive then { s with disicnt := k }.withDisi (k != 0)
  else if k = 0 then { s with disicnt := 0 }
  else { s with disicnt := Config.freeCount s.draws }.drawn 1

/-- A word written to SPLIM arms the stack overflow check (41 R171). -/
def State.writeSplim (s : State) (v : Word) : State :=
  { s with splim := evenWord v, splimArmed := true }

/-- A word written to RCON: TRAPR is cleared by a 0 and not set (41 R173, log 15). -/
def State.writeRcon (s : State) (v : Word) : State := { s with trapr := s.trapr && v.getLsbD 15 }

/-- A word written to OSCCON: what becomes of CF is not stated (41 R173, log 10). -/
def State.writeOsccon (s : State) : State := { s with cf := Config.freeBool s.draws }.drawn 1

/-- A software word write to a register (41 R160-R173). -/
def State.writeSfr (s : State) (v : Word) : Sfr → State
  | .wReg d => s.setW d v
  | .sr => s.writeSr v
  | .corcon => s.writeCorcon v
  | .intcon1 => s.writeIntcon1 v
  | .intcon2 => s.writeIntcon2 v
  | .ifs k => s.writeIfs k v
  | .iec k => s.writeIec k v
  | .ipc j => s.writeIpc j v
  | .inttreg => s
  | .disicnt => s.writeDisicnt v
  | .splim => s.writeSplim v
  | .rcon => s.writeRcon v
  | .osccon => s.writeOsccon

/-! ### Byte writes (20 R85, R88): the other byte keeps its value -/

/-- A byte written to SPLIM. Whether it arms the check is not stated: free (93 U16, log 31). -/
def State.writeSplimByte (s : State) (high : Bool) (b : Byte) : State :=
  { s with
    splim := evenWord (replaceByte s.splim high b)
    splimArmed := s.splimArmed || Config.freeBool s.draws }.drawn 1

/-- A software byte write to a register. -/
def State.writeSfrByte (s : State) (high : Bool) (b : Byte) : Sfr → State
  | .splim => s.writeSplimByte high b
  | .osccon => if high then s else s.writeOsccon
  | .rcon => if high then s.writeRcon (b ++ 0#8) else s
  | r => s.writeSfr (replaceByte (s.readSfr r) high b) r

/-! ### Data-space accesses at implemented addresses -/

/-- The word at the even address of `a` (`MemRead(addr, 2)`). Register space that the spec does not describe reads a
free value (log 5). -/
def State.readDataWord (s : State) (a : Word) : Word :=
  match placeOf s.device a with
  | .sfr r => s.readSfr r
  | .undescribed => Config.freeWord s.draws
  | .ram => readWord s.data (evenWord a).toNat

/-- The byte at an address (`MemRead(addr, 1)`). -/
def State.readDataByte (s : State) (a : Word) : Byte :=
  if a.getLsbD 0 then highByte (s.readDataWord a) else lowByte (s.readDataWord a)

/-- Write the word at the even address of `a` (`MemWrite(addr, 2, v)`). A write to register space that the spec does
not describe changes nothing of this state (log 5). -/
def State.writeDataWord (s : State) (a : Word) (v : Word) : State :=
  match placeOf s.device a with
  | .sfr r => s.writeSfr v r
  | .undescribed => s
  | .ram => { s with data := writeWord s.data (evenWord a).toNat v }

/-- Write the byte at an address (`MemWrite(addr, 1, v)`). -/
def State.writeDataByte (s : State) (a : Word) (b : Byte) : State :=
  match placeOf s.device a with
  | .sfr r => s.writeSfrByte (a.getLsbD 0) b r
  | .undescribed => s
  | .ram => { s with data := writeByte s.data a.toNat b }

/-- A write to this address writes W15 (10 R22). -/
def State.storesSp (s : State) (a : Word) : Bool := decide (placeOf s.device a = .sfr (.wReg 15#4))

end Sys2Proof.Machine
end

