-- ==== Sys2Proof/Machine/Ops.lean ====
section
/-! DEFINITION. The shared operations: ticks, device reset, the evaluation of a hard trap, taking an exception and
returning from one. -/

namespace Sys2Proof.Machine

/-- What the machine answers. -/
abbrev Answer := Host.Outcome State Fault Refusal

/-- Go on from a next state; a fault or a refusal stands. -/
def andThen (o : Answer) (f : State → Answer) : Answer :=
  match o with
  | .next s => f s
  | .fault r => .fault r
  | .refused r => .refused r

/-! ### The clock -/

/-- One cycle of the soft trap skid: a requested soft trap grows older, up to `SOFT_TRAP_SKID_MAX` (60 R248). -/
def State.ageSoftTraps (s : State) : State :=
  { s with
    stkAge := if s.trapRequested .stack then min Config.softTrapSkidMax (s.stkAge + 1) else 0
    mathAge := if s.trapRequested .math then min Config.softTrapSkidMax (s.mathAge + 1) else 0 }

/-- DISICNT counts down and, at zero, ends the `DISI` (40 R133). -/
def State.countDown (s : State) : State :=
  if s.disicnt = 0 then s
  else
    let s' := { s with disicnt := s.disicnt - 1 }
    if s'.disicnt = 0 then s'.withDisi false else s'

/-- `Tick`, one instruction cycle (40 R133). -/
def State.tick (s : State) : State := s.ageSoftTraps.countDown

/-- A number of `Tick`s. -/
def State.ticks (s : State) : Nat → State
  | 0 => s
  | n + 1 => s.tick.ticks n

/-! ### Device reset -/

/-- `DeviceReset(kind)` (70 R300, 10 R69). What 10 R69 leaves unspecified takes free values, the data RAM among it
(log 14). SPLIM's free value has bit 0 at 0: 10 R64 leaves all 16 bits open, and 41 R171 takes bit 0 as 0 of a written
value only; DESIGN CHOICE, log 9 and log 14, unsafe. Program memory, the device, the pins, the temporary buffer and the
schedule stay (log 12, log 13). -/
def State.deviceReset (s : State) (kind : ResetKind) : State :=
  let r := fun i => Config.freeWord (s.draws + i)
  { State.reset with
    w := #v[r 0, r 1, r 2, r 3, r 4, r 5, r 6, r 7, r 8, r 9, r 10, r 11, r 12, r 13, r 14, Config.stackBase]
    ipc := #v[0x4444#16 &&& priorityMask s.device 0, 0x4444#16 &&& priorityMask s.device 1,
      0x4444#16 &&& priorityMask s.device 2, 0x4444#16 &&& priorityMask s.device 3,
      0x4444#16 &&& priorityMask s.device 4, 0x4444#16 &&& priorityMask s.device 5,
      0x4444#16 &&& priorityMask s.device 6, 0x4444#16 &&& priorityMask s.device 7,
      0x4444#16 &&& priorityMask s.device 8, 0x4444#16 &&& priorityMask s.device 9,
      0x4444#16 &&& priorityMask s.device 10]
    splim := evenWord (r 15)
    trapr := decide (kind = .trapConflict)
    cf := Config.freeBool s.draws
    accA := Config.freeAcc s.draws
    accB := Config.freeAcc (s.draws + 1)
    data := ramOf (Config.freeCells s.draws)
    pin := s.pin
    tempPc := s.tempPc
    tempSrl := s.tempSrl
    prog := s.prog
    inputs := s.inputs
    draws := s.draws + 16
    device := s.device }

/-! ### Hard traps -/

/-- A hard trap of a higher level is pending, acknowledged or being processed (60 R245). -/
def State.hardTrapConflict (s : State) (t : Trap) : Bool :=
  (Trap.all.any fun u => decide (t.level < u.level) && s.trapFlag u) || (s.ipl3 && decide (t.level < s.cpuIpl))

/-- What the raise of a hard trap leads to, evaluated when its cause has completed (60 R245): the conflict reset as the
CPU's next step (00 R12), the fault at its own level, or the entry at the boundary that follows (log 27). -/
def State.settleHardTrap (s : State) (t : Trap) : Answer :=
  if s.conflictDue || s.hardTrapConflict t then .next { s with conflictDue := true }
  else if s.cpuIpl = t.level then .fault (.unacknowledgeableHardTrap t.level)
  else .next s

/-- `raise AddressError` (42 R208). -/
def State.raiseAddressError (s : State) : Answer := (s.flagTrap .address).settleHardTrap .address

/-- The flags of an oscillator failure: OSCFAIL and CF (60 R227). -/
def State.flagOscFail (s : State) : State := { s.flagTrap .oscillator with cf := true }

/-! ### Taking an exception -/

/-- Push one word: write at W15, then W15 up by 2 (10 R23, 60 R250). A write to an unimplemented address does not land
(log 21). A push that lands on W15's own address 0x001E overwrites W15 before the 2 is added, as the pseudocode of 60 R250
has it; 30 R113 and 60 R252 say that W15 ends at s + 4, and the spec does not say which holds there (DESIGN CHOICE, log
21). -/
def State.pushWord (s : State) (v : Word) : State :=
  let s' := if s.dataImpl s.sp then s.writeDataWord s.sp v else s
  s'.setSp (s'.sp + 2#16)

/-- The first word of the frame: PC[15:0] (30 R113). -/
def frameLow (pc : ProgAddr) : Word := pc.extractLsb' 0 16

/-- The second word of the frame: SRL, IPL3, PC[22:16] (30 R113). -/
def frameHigh (srl : Byte) (ipl3 : Bool) (pc : ProgAddr) : Word :=
  srl ++ BitVec.ofBool ipl3 ++ pc.extractLsb' 16 7

/-- The PC and SRL go to the temporary buffer (10 R68, 70 R330). -/
def State.saveTemp (s : State) : State := { s with tempPc := s.pc, tempSrl := s.srl }

/-- The state after the two pushes of an exception entry (60 R250, R252). -/
def State.pushFrame (s : State) : State :=
  let s1 := s.pushWord (frameLow s.pc)
  s1.pushWord (frameHigh s1.srl s1.ipl3 s.pc)

/-- One of the two pushes, or W15 after them, fails a stack check (42 R195, R196, log 21). -/
def State.pushFrameStackBad (s : State) : Bool :=
  s.stackBad s.sp || s.stackBad (s.pushWord (frameLow s.pc)).sp || decide (s.pushFrame.sp < Config.stackBase)

/-- One of the two pushes is at an unimplemented address (60 R252, log 21). -/
def State.pushFrameUnimplemented (s : State) : Bool :=
  !s.dataImpl s.sp || !s.dataImpl (s.pushWord (frameLow s.pc)).sp

/-- The new CPU priority at the entry of a request of level `l` (60 R253). -/
def State.enterLevel (s : State) (l : Nat) : State :=
  if 8 ≤ l then (s.withIpl3 true).withIpl (BitVec.ofNat 3 (l - 8))
  else if s.nstdis then s.withIpl 7#3
  else s.withIpl (BitVec.ofNat 3 l)

/-- The implemented bits of INTTREG (10 R62). -/
def inttregImplemented : Word := 0x0F7F#16

/-- INTTREG takes a free value (60 R254, log 28). -/
def State.loseInttreg (s : State) : State :=
  { s with inttreg := Config.freeWord s.draws &&& inttregImplemented, inttregHold := .lost }.drawn 1

/-- ILR and VECNUM of a request (10 R62, 30 R123). -/
def inttregOf (vector level : Nat) : Word :=
  0#4 ++ BitVec.ofNat 4 level ++ 0#1 ++ BitVec.ofNat 7 (vector - 8)

/-- INTTREG at the entry: latched for an interrupt, free for a trap (60 R254). -/
def State.latchInttreg (s : State) (vector level : Nat) : State :=
  if 8 ≤ vector then
    { s with inttreg := inttregOf vector level, inttregHold := .source (vector - 8) }
  else s.loseInttreg

/-- The program address of a vector in the table in use (30 R110, 60 R255). -/
def State.vectorLocation (s : State) (vector : Nat) : Nat :=
  (if s.altivt then Config.aivtBase else Config.ivtBase) + 2 * vector

/-- The handler's address from the content of a vector: bit 23 is ignored, bit 0 taken as 0 (30 R111). -/
def handlerAddress (content : Word24) : ProgAddr := evenPc (content.extractLsb' 0 23)

/-- The state after an exception entry, before what its own pushes raise (60 R250). -/
def State.entered (s : State) (vector level : Nat) : State :=
  let s1 := ((s.saveTemp.pushFrame.enterLevel level).latchInttreg vector level)
  let s2 := { s1 with
    pc := handlerAddress (readProg s1.prog (s1.vectorLocation vector))
    pmode := .run
    irqSkid := .used }
  s2.ticks Config.entryCycles

/-- `ExceptionEntry(v, L)` (60 R250): the frame on the stack, the new priority, INTTREG, the handler's address, four
cycles. A trap that its pushes raise is raised after the entry is complete (60 R252, log 21). -/
def State.takeException (s : State) (vector level : Nat) : Answer :=
  let location := s.pushFrame.vectorLocation vector
  if s.progImpl location then
    let s1 := s.entered vector level
    let s2 := if s.pushFrameStackBad then s1.raiseStackError else s1
    if s.pushFrameUnimplemented then s2.raiseAddressError else .next s2
  else .refused (.unimplementedVector location)

/-! ### Returning from an exception -/

/-- One of the two pop addresses borrows below 0x0000. -/
def State.popFrameBorrows (s : State) : Bool := decide (s.sp < 4#16)

/-- One of the two pops fails a stack check (42 R195, R196). Whether a borrow below 0x0000 is the wrap of 42 R197, which
names only a result above 0xFFFF, is not stated: free (DESIGN CHOICE, log 40). -/
def State.popFrameStackBad (s : State) : Bool :=
  s.stackBad (s.sp - 2#16) || s.stackBad (s.sp - 4#16) || (s.popFrameBorrows && Config.freeBool s.draws)

/-- One of the two pops reads an unimplemented address (42 R206). -/
def State.popFrameUnimplemented (s : State) : Bool :=
  !s.dataImpl (s.sp - 2#16) || !s.dataImpl (s.sp - 4#16)

/-- The two words a return pops, the second word of the frame first. Where a pop raises a trap they are free (42 R190,
R195, R206, log 20). -/
def State.poppedFrame (s : State) : Word × Word :=
  if s.popFrameStackBad || s.popFrameUnimplemented then
    (Config.freeWord s.draws, Config.freeWord (s.draws + 1))
  else (s.readDataWord (s.sp - 2#16), s.readDataWord (s.sp - 4#16))

/-- The return address of a frame: hi[6:0] :: lo[15:1] :: 0 (40 R135). -/
def frameReturn (hi lo : Word) : ProgAddr := hi.extractLsb' 0 7 ++ lo.extractLsb' 1 15 ++ 0#1

/-- W15 after a return: down by 4. Where a pop raises a trap it is free (42 R190, 93 U3), but for a W15 that falls below
0x0800 by pops that both read implemented data: that value is the stack error's cause, and the spec gives it (40 R136 case
e, 42 R196, log 20). -/
def State.returnedSp (s : State) : Word :=
  let v := evenWord (s.sp - 4#16)
  if s.popFrameUnimplemented || (s.popFrameStackBad && !decide (v < Config.stackBase)) then
    evenWord (Config.freeWord (s.draws + 2))
  else v

/-- The state after a return, before what its pops raise (40 R135). -/
def State.returned (s : State) : State :=
  let frame := s.poppedFrame
  let s1 := if s.popFrameBorrows || s.popFrameStackBad || s.popFrameUnimplemented then s.drawn 3 else s
  let s2 := ((s1.setSp s.returnedSp).withSrl (frame.1.extractLsb' 8 8)).withIpl3 (frame.1.getLsbD 7)
  { s2 with pc := frameReturn frame.1 frame.2 }

/-- A return raises the stack error: by its pops, or by the W15 that it leaves (42 R195, R196). -/
def State.returnStackBad (s : State) : Bool := s.popFrameStackBad || decide (s.returnedSp < Config.stackBase)

/-- The return from an exception (40 R135): W15 down by 4, SRL, IPL3 and pc from the frame; then the traps it raises. -/
def State.returnFromException (s : State) : Answer :=
  let s1 := if s.returnStackBad then s.returned.raiseStackError else s.returned
  if s.popFrameUnimplemented then s1.raiseAddressError else .next s1

end Sys2Proof.Machine
end

