-- ==== Sys2Proof/Machine/Arbitration.lean ====
section
/-! DEFINITION. Which request the controller presents to the CPU (60 R240-R243), and what wakes it (60 R270). -/

namespace Sys2Proof.Machine

/-- A request: its vector number and its level (60 R243). -/
structure Request where
  vector : Nat
  level : Nat
  deriving DecidableEq, Repr

/-- disi_masked(n) for a source of priority `p` (60 R241). -/
def State.disiMasked (s : State) (p : Nat) : Bool := s.disiActive && decide (1 ≤ p) && decide (p ≤ 6)

/-- irq_requested(n) with the priorities of an array of IPC registers (60 R240). -/
def State.irqRequested (s : State) (ipc : Vector Word 11) (n : Nat) : Bool :=
  s.irqFlag n && s.irqEnable n && decide (s.cpuIpl < priorityIn ipc n) && !s.disiMasked (priorityIn ipc n)

/-- The requested trap of the greatest level (60 R243). -/
def State.topTrap (s : State) : Option Request :=
  (Trap.all.find? fun t => s.trapRequested t).map fun t => ⟨t.vector, t.level⟩

/-- Among these request numbers in rising order, the requested interrupt of the greatest priority, and of those the one
of the least vector (60 R242, R243). -/
def topIrqOf (s : State) (ipc : Vector Word 11) : List Nat → Option Request
  | [] => none
  | n :: rest =>
    let later := topIrqOf s ipc rest
    if implementsSource s.device n && s.irqRequested ipc n then
      match later with
      | some r => if priorityIn ipc n < r.level then some r else some ⟨n + 8, priorityIn ipc n⟩
      | none => some ⟨n + 8, priorityIn ipc n⟩
    else later

/-- The winner among the interrupts (60 R243). -/
def State.topIrq (s : State) (ipc : Vector Word 11) : Option Request := topIrqOf s ipc Config.listedSources

/-- `Arb(state)` with the priorities of an array of IPC registers (60 R243). -/
def State.arbitrate (s : State) (ipc : Vector Word 11) : Option Request :=
  match s.topTrap with
  | some r => some r
  | none => s.topIrq ipc

/-- wake_request (60 R270). -/
def State.wakeRequest (s : State) : Bool :=
  Config.listedSources.any fun n =>
    implementsSource s.device n && s.irqFlag n && s.irqEnable n && decide (1 ≤ s.irqPriority n)

/-- Another request than the one INTTREG was latched for is pending and enabled (60 R254, log 28). A request counts as
the same by its source: one of the latched source that was cleared and set again is not another, which the spec leaves
open (DESIGN CHOICE, log 28). -/
def State.otherRequest (s : State) : Bool :=
  (Trap.all.any fun t => s.trapFlag t) ||
    Config.listedSources.any fun n =>
      implementsSource s.device n && s.irqFlag n && s.irqEnable n && decide (s.inttregHold ≠ .source n)

/-- At a boundary INTTREG keeps its value only while it may be relied on (60 R254, log 28). -/
def State.refreshInttreg (s : State) : State :=
  if s.inttregHold = .lost || s.otherRequest then s.loseInttreg else s

end Sys2Proof.Machine
end

