-- ==== Sys2Proof/Machine/CoreAgent.lean ====
section
/-! DEFINITION. What an instruction of the CPU core that the opcode table does not list does to this state: the accesses
it makes and the trap causes it raises (00 R5, R12; 42 R190-R212; log 2). -/

namespace Sys2Proof.Machine

/-- What an instruction of the CPU core writes. -/
inductive CoreWrite where
  /-- A working register. -/
  | reg (d : BitVec 4)
  /-- A working register that takes a value no rule gives. -/
  | lost (d : BitVec 4)
  /-- W15, which a pop moves to this value. -/
  | popped (v : Word)
  /-- A word of data space. -/
  | word (a : Word)
  /-- A byte of data space. -/
  | byte (a : Word)
  /-- An accumulator. -/
  | acc (x : Acc)
  /-- SR.OA or SR.OB, and whether the accumulator overflowed. -/
  | overflow (x : Acc) (occurred : Bool)
  /-- The flags of SR. -/
  | flags
  /-- CORCON.DL. -/
  | doLevel
  deriving DecidableEq, Repr

/-- How far an instruction of the CPU core has come. -/
structure CoreRun where
  /-- The state with every effect as stated. -/
  state : State
  /-- Its data-space writes are not performed (42 R208). -/
  inhibited : Bool
  /-- An address error was raised. -/
  addressError : Bool
  /-- The causes of soft traps that were raised. -/
  causes : List SoftCause
  /-- What it wrote, in order. -/
  writes : List CoreWrite
  deriving DecidableEq, Repr

/-! ### Results -/

/-- W`d` takes a result. -/
def CoreRun.give (r : CoreRun) (d : BitVec 4) (v : Word) : CoreRun :=
  { r with state := r.state.setW d v, writes := r.writes ++ [.reg d] }

/-- W`d` takes a free value. -/
def CoreRun.lose (r : CoreRun) (d : BitVec 4) : CoreRun :=
  { r with state := r.state.setW d (Config.freeWord r.state.draws), writes := r.writes ++ [.lost d] }

/-- The write changes W15: by its number, by a push or a pop, or at its address (10 R22). -/
def State.touchesSp (s : State) : CoreWrite → Bool
  | .reg d | .lost d => decide (d = 15#4)
  | .popped _ => true
  | .word a | .byte a => s.storesSp a
  | .acc _ | .overflow _ _ | .flags | .doLevel => false

/-- The stack error of the W15 that the whole instruction leaves, below 0x0800 (42 R196, 92 D30). A W15 whose last write no
rule gives is checked where it takes its free value, in `State.blurAll`. -/
def CoreRun.spCauses (r : CoreRun) : List SoftCause :=
  match (r.writes.filter r.state.touchesSp).getLast? with
  | none => []
  | some (.lost _) => []
  | some _ => if r.state.sp < Config.stackBase then [.stack] else []

/-! ### Addresses -/

/-- A pointer resolved: the effective address, whether a stack check tripped, the state after W15 moved, and that it
moved. -/
structure Resolved where
  ea : Word
  tripped : Bool
  state : State
  moved : List CoreWrite
  deriving DecidableEq, Repr

/-- The stack checks of an effective address formed from W15 (42 R195-R197). Whether a computation that borrows below
0x0000 wraps in the sense of 42 R197, which names only a result above 0xFFFF, is not stated: free (DESIGN CHOICE, log
40). -/
def State.reach (s : State) (ea : Word) (wraps borrows : Bool) : Resolved :=
  let bad := s.stackBad ea || wraps || (borrows && Config.freeBool s.draws)
  ⟨ea, bad, (if bad then s.raiseStackError else s).drawn 1, []⟩

/-- W15 moves to a value, which is the write `w`. -/
def Resolved.moveSp (r : Resolved) (v : Word) (w : CoreWrite) : Resolved :=
  { r with state := r.state.setSp v, moved := [w] }

/-- The effective address of a pointer, with the stack checks made and W15 moved (10 R23, 42 R195-R197). -/
def resolve (s : State) : Pointer → Resolved
  | .direct a => ⟨a, false, s, []⟩
  | .w15 offset =>
    let sum := (s.sp.toNat : Int) + offset
    s.reach (BitVec.ofInt 16 sum) (decide (0xFFFF < sum)) (decide (sum < 0))
  | .push => (s.reach s.sp false false).moveSp (s.sp + 2#16) (.reg 15#4)
  | .pop => (s.reach (s.sp - 2#16) false (decide (s.sp < 2#16))).moveSp (s.sp - 2#16) (.popped (s.sp - 2#16))

/-- A word access at this address raises the address error: it is misaligned (42 R205). -/
def misaligned (a : Word) : Bool := a.getLsbD 0

/-- The run after a pointer was resolved. -/
def CoreRun.at (r : CoreRun) (x : Resolved) : CoreRun :=
  { r with
    state := x.state
    causes := r.causes ++ (if x.tripped then [.stack] else [])
    writes := r.writes ++ x.moved }

/-! ### Accesses -/

/-- A read gives W`d` a value; one that is `bad` raises the address error and gives a free value (42 R205, R206). -/
def CoreRun.load (r : CoreRun) (bad : Bool) (d : BitVec 4) (v : Word) : CoreRun :=
  let given := if bad then r.lose d else r.give d v
  { given with state := given.state.drawn 1, addressError := r.addressError || bad }

/-- A data-space write at an address, which `write` performs. To an unimplemented address nothing is written and no trap
is raised: 42 R206 lists reads alone (DEDUCED, log 32). -/
def CoreRun.store (r : CoreRun) (a : Word) (write : State → State) (w : CoreWrite) : CoreRun :=
  if r.state.dataImpl a && !r.inhibited then
    { r with state := write r.state, writes := r.writes ++ [w] }
  else r

/-- A word written by a run. -/
def CoreRun.storeWord (r : CoreRun) (a v : Word) : CoreRun := r.store a (·.writeDataWord a v) (.word a)

/-- A fetch of the `MAC` class fails: misaligned, unimplemented, or in the other data space (42 R205, R206). -/
def State.macFetchBad (s : State) (space : DataSpace) (a : Word) : Bool :=
  misaligned a || !s.dataImpl a || (match space with | .x => s.inYSpace a | .y => !s.inYSpace a)

/-! ### Accumulators and the divide -/

/-- An accumulator takes a value (10 R67). -/
def State.setAcc (s : State) (x : Acc) (v : BitVec 40) : State :=
  match x with
  | .a => { s with accA := v }
  | .b => { s with accB := v }

/-- The trapped causes of an accumulator result (42 R200-R202). Where a catastrophic overflow is trapped and the ordinary
trap is enabled too, the ordinary cause flag is free (93 U4, log 36). -/
def State.accCauses (s : State) (x : Acc) (carry31 carry39 : Bool) : List SoftCause :=
  let catastrophic := carry39 && !s.saturates x && s.catastrophicTrapEnabled
  let overflow :=
    if catastrophic && s.overflowTrapEnabled x then Config.freeBool s.draws
    else carry31 && !s.saturates31 x && s.overflowTrapEnabled x
  (if overflow then [.overflow x] else []) ++ (if catastrophic then [.catastrophic x] else [])

/-- An accumulator result with its overflow events (42 R200-R202). -/
def State.accResult (s : State) (x : Acc) (v : BitVec 40) (carry31 carry39 : Bool) : State :=
  (((s.setAcc x v).withAccOverflow x (carry31 && !s.saturates31 x)).drawn 1).raiseCauses (s.accCauses x carry31 carry39)

/-- A shift value of `SFTAC` that traps: beyond 16 either way (42 R203). -/
def shiftTraps (count : Int) : Bool := decide (16 < count) || decide (count < -16)

/-- `SFTAC`: a shift value beyond 16 either way raises the trap and leaves the accumulator (42 R203). -/
def State.shiftAcc (s : State) (x : Acc) (count : Int) (v : BitVec 40) : State :=
  if shiftTraps count then s.raiseCause .shift else s.setAcc x v

/-- The first iteration of a divide: a zero divisor raises the trap, and the results are free (42 R204, log 37). -/
def State.divideStep (s : State) (divisor quotient remainder : Word) (dq dr : BitVec 4) : State :=
  if divisor = 0 then
    (((s.raiseCause .divide).setW dq (Config.freeWord s.draws)).setW dr (Config.freeWord (s.draws + 1))).drawn 2
  else (s.setW dq quotient).setW dr remainder

/-! ### The instruction -/

/-- One effect, as stated. A byte read leaves 0 in the upper byte of its register, which the spec does not say (DESIGN
CHOICE, log 2). -/
def CoreRun.apply (r : CoreRun) (e : CoreEffect) : CoreRun :=
  match e with
  | .setW d v => r.give d v
  | .readWord q d =>
    let x := resolve r.state q
    (r.at x).load (misaligned x.ea || !x.state.dataImpl x.ea) d (x.state.readDataWord x.ea)
  | .readByte q d =>
    let x := resolve r.state q
    (r.at x).load (!x.state.dataImpl x.ea) d ((x.state.readDataByte x.ea).setWidth 16)
  | .writeWord q v =>
    let x := resolve r.state q
    if misaligned x.ea then { r.at x with addressError := true } else (r.at x).storeWord x.ea v
  | .writeByte q v =>
    let x := resolve r.state q
    (r.at x).store x.ea (·.writeDataByte x.ea v) (.byte x.ea)
  | .setBit q b value =>
    let x := resolve r.state q
    if misaligned x.ea || !x.state.dataImpl x.ea then { r.at x with addressError := true }
    else (r.at x).storeWord x.ea (setBitTo (x.state.readDataWord x.ea) b.toNat value)
  | .macFetch space a d => r.load (r.state.macFetchBad space a) d (r.state.readDataWord a)
  | .accResult x v carry31 carry39 =>
    { r with
      state := r.state.accResult x v carry31 carry39
      causes := r.causes ++ r.state.accCauses x carry31 carry39
      writes := r.writes ++ [.acc x, .overflow x (carry31 && !r.state.saturates31 x)] }
  | .sftac x count v =>
    { r with
      state := r.state.shiftAcc x count v
      causes := r.causes ++ (if shiftTraps count then [.shift] else [])
      writes := r.writes ++ (if shiftTraps count then [] else [.acc x]) }
  | .divide divisor quotient remainder dq dr =>
    if divisor = 0 then
      { r with
        state := r.state.divideStep divisor quotient remainder dq dr
        causes := r.causes ++ [.divide]
        writes := r.writes ++ [.lost dq, .lost dr] }
    else (r.give dq quotient).give dr remainder
  | .flags v => { r with state := r.state.withCoreFlags v, writes := r.writes ++ [.flags] }
  | .doLevel n => { r with state := r.state.withDoLevel n, writes := r.writes ++ [.doLevel] }

/-- All effects in order (20 R92). -/
def runEffects (r : CoreRun) : List CoreEffect → CoreRun
  | [] => r
  | e :: rest => runEffects (r.apply e) rest

/-- The instruction's effects from a state, and the check of the W15 that they leave. -/
def runFrom (s : State) (inhibited : Bool) (effects : List CoreEffect) : CoreRun :=
  let r := runEffects ⟨s, inhibited, false, [], []⟩ effects
  { r with causes := r.causes ++ r.spCauses }

/-- The pc after the instruction. -/
def State.goTo (s : State) : CoreNext → State
  | .fallThrough words => s.advance (2 * words)
  | .literal t => s.setPc t
  | .computed t => s.setPc t

/-- A literal branch to an unimplemented address raises the address error (42 R207). -/
def State.branchBad (s : State) : CoreNext → Bool
  | .fallThrough _ => false
  | .literal t => !s.progImpl (evenPc t).toNat
  | .computed _ => false

/-! ### What a trapped instruction leaves -/

/-- Whether a data-space write of an instruction that raised a trap is performed (42 R195, 93 U3). -/
def State.performs (s : State) : Bool := Config.freeBool s.draws

/-- One write of an instruction that raised a trap: any value, and a data-space write may be performed or not (42 R190,
R195; 93 U3; log 2). Two values are as the spec gives them: a W15 that a pop takes below 0x0800 where no address error was
raised, which is the stack error of the example of 42 R196; and OA or OB after an overflow, an event that sets it as it sets
its trap flags (42 R200, R201). -/
def State.blur (s : State) (addressError : Bool) : CoreWrite → State
  | .reg d | .lost d => (s.setW d (Config.freeWord s.draws)).drawn 1
  | .popped v => if !addressError && decide (evenWord v < Config.stackBase) then s.setSp v else s.loseSp
  | .word a => if s.performs then (s.drawn 1).writeDataWord a (Config.freeWord s.draws) else s.drawn 1
  | .byte a => if s.performs then (s.drawn 1).writeDataByte a (lowByte (Config.freeWord s.draws)) else s.drawn 1
  | .acc x => (s.setAcc x (Config.freeAcc s.draws)).drawn 1
  | .overflow x occurred => (s.withAccOverflow x (occurred || Config.freeBool s.draws)).drawn 1
  | .flags => (s.withCoreFlags (Config.freeWord s.draws)).drawn 1
  | .doLevel => (s.withDoLevel ((Config.freeWord s.draws).extractLsb' 0 3)).drawn 1

/-- The write of a trapped instruction changes W15; a data-space write does so only where it is performed. -/
def State.blursSp (s : State) (w : CoreWrite) : Bool :=
  s.touchesSp w && match w with
    | .word _ | .byte _ => s.performs
    | _ => true

/-- Every write of an instruction that raised a trap, and then the check of the W15 that they leave, where one of them
changed it (42 R196, 92 D30). -/
def State.blurAll (s : State) (addressError changedSp : Bool) : List CoreWrite → State
  | [] => if changedSp then s.checkSp else s
  | w :: rest => (s.blur addressError w).blurAll addressError (changedSp || s.blursSp w) rest

/-- The state after an instruction that raised a trap: what the run wrote is free, and every flag whose cause occurred is
set (42 R190, R212). A run with its writes inhibited is that of an address error (42 R208). -/
def CoreRun.trapped (r : CoreRun) (s : State) (next : CoreNext) : State :=
  ((({ s with draws := r.state.draws }).blurAll r.inhibited false r.writes).goTo next).raiseCauses r.causes

/-- The instruction. An address error suppresses its data-space writes (42 R208); without any trap everything is as
stated. -/
def runCore (c : CoreStep) (s : State) : Answer :=
  let r := runFrom s false c.effects
  if r.addressError || s.branchBad c.next then ((runFrom s true c.effects).trapped s c.next).raiseAddressError
  else if r.causes.isEmpty then .next (r.state.goTo c.next)
  else .next (r.trapped s c.next)

end Sys2Proof.Machine
end

