-- ==== Sys2Proof/Machine/InterruptInstr.lean ====
section
/-! DEFINITION. The meanings of the interrupt-control instructions (40 R130-R141). The cycles of a step are counted
before its meaning (40 R130), in Machine/Schedule.lean. -/

namespace Sys2Proof.Machine

/-- `DISI #k` (40 R131, R134). -/
def execDisi (k : BitVec 14) (s : State) : Answer :=
  .next (({ s with disicnt := k }.withDisi (k != 0)).advance 2)

/-- `RETFIE` (40 R135, R136). -/
def execRetfie (s : State) : Answer := s.returnFromException

/-- `RESET` (40 R138). -/
def execReset (s : State) : Answer := .next (s.deviceReset .software)

/-- The mode that `PWRSAV` enters (40 R139). -/
def powerMode : PowerSave → PMode
  | .sleep => .sleep
  | .idle => .idle

/-- `PWRSAV #m` (40 R139). -/
def execPwrsav (m : PowerSave) (s : State) : Answer :=
  .next { s.advance 2 with pmode := powerMode m }

/-- `GOTO addr`: an unimplemented target raises the address error, with the pc at the target (40 R140, 42 R207, 60 R251). -/
def execGoto (addr : ProgAddr) (s : State) : Answer :=
  let s' := s.setPc addr
  if s.progImpl (evenPc addr).toNat then .next s' else s'.raiseAddressError

/-- `NOP` (40 R141). -/
def execNop (_ignored : Word) (s : State) : Answer := .next (s.advance 2)

end Sys2Proof.Machine
end

