-- ==== Sys2Proof/Machine/MoveInstr.lean ====
section
/-! DEFINITION. The meanings of the support instructions (41 R182, R183). -/

namespace Sys2Proof.Machine

/-- `MOV #k, Wd` (41 R182). A W15 below 0x0800 raises the stack error, and what stays in W15 is free (42 R190, R196,
log 19). -/
def execMovLit (k : Word) (d : BitVec 4) (s : State) : Answer :=
  .next (((s.setW d k).settleSp (decide (d = 15#4))).advance 2)

/-- `MOV Ws, f`: one word write by the register rules (41 R183); where it writes W15 and so raises the stack error, what
stays in W15 is free (42 R190, R196, log 19). A misaligned address, which no encoding expresses,
raises the address error without the write (42 R205, R208). -/
def execMovWsF (src : BitVec 4) (f : Word) (s : State) : Answer :=
  if f.getLsbD 0 then (s.advance 2).raiseAddressError
  else if s.dataImpl f then .next (((s.writeDataWord f (s.getW src)).settleSp (s.storesSp f)).advance 2)
  else .refused (.unimplementedDataWrite f)

end Sys2Proof.Machine
end

