-- ==== Sys2Proof/Machine/Dispatch.lean ====
section
/-! DEFINITION. The meaning of each instruction, one arm for each constructor. -/

namespace Sys2Proof.Machine

def exec (i : Instr) (s : State) : Host.Outcome State Fault Refusal :=
  match i with
  | .disi k => Sys2Proof.Machine.execDisi k s
  | .retfie => Sys2Proof.Machine.execRetfie s
  | .reset => Sys2Proof.Machine.execReset s
  | .pwrsav m => Sys2Proof.Machine.execPwrsav m s
  | .goto addr => Sys2Proof.Machine.execGoto addr s
  | .nop ignored => Sys2Proof.Machine.execNop ignored s
  | .movLit k d => Sys2Proof.Machine.execMovLit k d s
  | .movWsF src f => Sys2Proof.Machine.execMovWsF src f s

end Sys2Proof.Machine
end

