-- ==== Sys2Proof/Machine/Events.lean ====
section
/-! DEFINITION. The events of the environment (00 R12; 60 R227, R230, R232; 70 R301). -/

namespace Sys2Proof.Machine

/-- The request number of an external interrupt pin (60 R232). -/
def pinSource (x : Fin 3) : Nat :=
  match x with
  | 0 => 0
  | 1 => 16
  | 2 => 17

/-- `PinEdge(x, dir)` (60 R232). -/
def State.pinEdge (s : State) (x : Fin 3) (dir : Edge) : State :=
  let s' := { s with pin := s.pin.set x (decide (dir = .rising)) x.isLt }
  if s.edgePolarity x = decide (dir = .falling) then s'.setIrqFlag (pinSource x) else s'

/-- `OscFail` on its own (60 R227, R245). -/
def State.oscFail (s : State) : Answer := s.flagOscFail.settleHardTrap .oscillator

/-- `Tick` on its own: delivered only while the CPU sleeps (00 R12, log 42). -/
def State.loneTick (s : State) : State := if s.pmode = .run then s else s.tick

end Sys2Proof.Machine
end

