-- ==== Sys2Proof/Machine/Schedule.lean ====
section
/-! DEFINITION. Who acts next: the environment's events, the CPU's boundary with its arbitration and skid, the fetch,
the cycles and the instruction (00 R12, 60 R246-R248, 60 R270). -/

namespace Sys2Proof.Machine

/-! ### Fetch -/

/-- The words at the pc: the second one as far as its location is implemented (30 R114, 42 R207). -/
def State.fetchWords (s : State) : List Word24 :=
  readProg s.prog s.pc.toNat ::
    (if s.progImpl (s.pc.toNat + 2) then [readProg s.prog (s.pc.toNat + 2)] else [])

/-- `cycles(step)` of an instruction of the opcode table, at least one, with the stall of its turn (00 R6, 70 R332, log
33). Those of `RETFIE` are fixed (70 R331, 92 D16). -/
def instrCycles (c : Config.Cycles) (stall : Nat) : Instr → Nat
  | .disi _ => max 1 c.disi + stall
  | .retfie => Config.retfieCycles
  | .reset => max 1 c.reset + stall
  | .pwrsav _ => max 1 c.pwrsav + stall
  | .goto _ => max 1 c.goto + stall
  | .nop _ => max 1 c.nop + stall
  | .movLit _ _ => max 1 c.movLit + stall
  | .movWsF _ _ => max 1 c.movWsF + stall

/-! ### One instruction -/

/-- What comes before the effects of an instruction: its cycles (40 R130), and an oscillator failure delivered with it
(60 R227). -/
def State.prepare (s : State) (t : Turn) (cycles : Nat) : State :=
  let s1 := s.ticks cycles
  if t.oscFail then s1.flagOscFail else s1

/-- What comes after the effects: the hard trap of an oscillator failure delivered with the instruction (60 R227,
R245). -/
def complete (t : Turn) (o : Answer) : Answer :=
  if t.oscFail then andThen o fun s => s.settleHardTrap .oscillator else o

/-- Execution at an unimplemented program address raises the address error and changes nothing else (42 R207, 93 U20,
log 35). -/
def State.executeUnimplemented (s : State) (t : Turn) : Answer :=
  complete t (s.prepare t (1 + t.stall)).raiseAddressError

/-- A word that the opcode table does not list: what the core agent does there, or the refusal (30 R118, log 2). Only the
first word's address is held against 42 R207: a two-word instruction of the core agent whose second word lies at an
unimplemented address raises no address error by that, which the spec leaves open (DESIGN CHOICE, log 35). -/
def State.executeUnlisted (s : State) (t : Turn) (w : Word24) : Answer :=
  match t.core with
  | some c => complete t (runCore c (s.prepare t (max 1 c.cycles + t.stall)))
  | none => .refused (.undecodable w)

/-- `Instr(i)`: fetch, decode and perform the instruction at the pc. What a second word at an unimplemented address does
is the model's choice: the address error for a `GOTO`, nothing for an unlisted word (DESIGN CHOICE, log 35). -/
def State.instruction (s : State) (t : Turn) : Answer :=
  if s.progImpl s.pc.toNat then
    match decode s.fetchWords with
    | .ok (i, _) => complete t (exec i (s.prepare t (instrCycles s.device.cycles t.stall i)))
    | .error (.noRow w) => s.executeUnlisted t w
    | .error (.badSecondWord w1 w2) => .refused (.badGotoPair w1 w2)
    | .error (.noSecondWord _) => s.executeUnimplemented t
    | .error .noWord => s.executeUnimplemented t
  else s.executeUnimplemented t

/-! ### The boundary -/

/-- The priorities that arbitration sees at this boundary (70 R320, log 29). -/
def State.priorities (s : State) (t : Turn) : Vector Word 11 :=
  match s.ipcStale with
  | some old => if t.oldPriorities then old else s.ipc
  | none => s.ipc

/-- A soft trap has waited as long as it may (60 R248). -/
def State.softTrapDue (s : State) : Bool :=
  (s.trapRequested .stack && decide (Config.softTrapSkidMax ≤ s.stkAge)) ||
    (s.trapRequested .math && decide (Config.softTrapSkidMax ≤ s.mathAge))

/-- May one more instruction complete before this request is entered (60 R247, R248, log 26)? -/
def State.mayDefer (s : State) (r : Request) : Bool :=
  match s.irqSkid with
  | .deferred _ _ => false
  | .woken => false
  | .fresh => if 13 ≤ r.level then false else if 8 ≤ r.level then !s.softTrapDue else true
  | .used => if 13 ≤ r.level then false else if 8 ≤ r.level then !s.softTrapDue else false

/-- The skid after a request was deferred. -/
def deferredSkid (r : Request) : IrqSkid := if 8 ≤ r.level then .used else .deferred r.vector r.level

/-- An interrupt deferred at the boundary before, where this turn enters it although arbitration returns none
(70 R321). Two points the spec leaves open (DESIGN CHOICE, log 26): it is entered at the level it had when it was
deferred, even if the deferred instruction changed its priority, and it is entered even if that instruction, a `RETFIE`,
restored IPL3 = 1; IPL3 then stays 1 (60 R253 takes it to be 0). -/
def State.lateRequest (s : State) (t : Turn) : Option Request :=
  match s.irqSkid with
  | .deferred v l => if t.lateEntry then some ⟨v, l⟩ else none
  | _ => none

/-- The state that the boundary's choice leaves: INTTREG as far as it may be relied on, no stale priorities. -/
def State.atBoundary (s : State) : State := { s.refreshInttreg with ipcStale := none }

/-- The boundary (60 R246): arbitrate; enter the request, defer it, or go on with the next instruction. Where arbitration
returns none, a late entry among it, the next boundary's interrupt may be deferred (60 R247). -/
def State.boundary (s : State) (t : Turn) : Answer :=
  let s' := s.atBoundary
  match s.arbitrate (s.priorities t) with
  | some r =>
    if s.mayDefer r && t.defer then { s' with irqSkid := deferredSkid r }.instruction t
    else s'.takeException r.vector r.level
  | none =>
    match s.lateRequest t with
    | some r => andThen (s'.takeException r.vector r.level) fun u => .next { u with irqSkid := .fresh }
    | none => { s' with irqSkid := .fresh }.instruction t

/-- A turn of the sleeping CPU: it wakes by an interrupt (60 R270), may wake by a trap (93 U10, log 25), or sleeps on. -/
def State.asleep (s : State) (t : Turn) : Answer :=
  if s.wakeRequest then .next { s with pmode := .run, irqSkid := .woken }
  else match s.topTrap with
    | some r => if t.trapWakes then s.atBoundary.takeException r.vector r.level else .next s
    | none => .next s

/-- A turn of the CPU: `HardTrapConflictReset` where it is due (00 R12, 60 R245), else what its mode says. -/
def State.cpuTurn (s : State) (t : Turn) : Answer :=
  if s.conflictDue then .next (s.deviceReset .trapConflict)
  else match s.pmode with
    | .run => s.boundary t
    | .sleep => s.asleep t
    | .idle => s.asleep t

/-! ### The schedule -/

/-- The CPU's turn where the schedule says nothing: the choices that the spec leaves open are free (log 1, log 26). -/
def quietTurn (n : Nat) : Turn where
  defer := Config.freeDefer n
  stall := 0
  oscFail := false
  trapWakes := Config.freeTrapWakes n
  oldPriorities := Config.freeOldPriorities n
  lateEntry := Config.freeLateEntry n
  core := none

/-- One entry of the schedule. -/
def State.deliver (s : State) : Input → Answer
  | .cpu t => s.cpuTurn t
  | .tick => .next s.loneTick
  | .irq n => .next (s.setIrqFlag n)
  | .pinEdge x dir => .next (s.pinEdge x dir)
  | .oscFail => s.oscFail
  | .powerOnReset => .next (s.deviceReset .powerOn)
  | .otherReset => .next (s.deviceReset .other)

/-- One step: the next entry of the schedule, or a quiet turn of the CPU (00 R12, log 1). -/
def State.proceed (s : State) : Answer :=
  match s.inputs with
  | [] => (s.drawn 1).cpuTurn (quietTurn s.draws)
  | e :: rest => { s with inputs := rest }.deliver e

/-- The state with a table word's program words at the pc (log 38). -/
def State.placeAtPc (s : State) : List Word24 → State
  | [] => s
  | [a] => { s with prog := writeProg s.prog s.pc.toNat a }
  | a :: b :: _ =>
    { s with prog := writeProg (writeProg s.prog s.pc.toNat a) (s.pc.toNat + 2) b }

end Sys2Proof.Machine
end

