-- ==== Sys2Proof/Machine/Step.lean ====
section
/-! DEFINITION. The step of the machine, and where it fetches its next instruction. -/

namespace Sys2Proof.Machine

/-- One step of the machine (00 R12). -/
def step (s : State) : Host.Outcome State Fault Refusal := s.proceed

/-- The instruction whose bits are `w`, the bits from `nbits` on taken as 0, at the program counter (log 38). -/
def State.withFetchWord (s : State) (nbits w : Nat) : State := s.placeAtPc (tableWords nbits w)

end Sys2Proof.Machine
end

