-- ==== Sys2Proof/Safety.lean ====
section
/-! DEFINITION. The terms in which claims speak: answers that go on, states as the spec allows them, and what stays
unchanged. -/

namespace Sys2Proof.Machine

/-- The answer is a next state. -/
def Answer.goesOn (o : Answer) : Prop := ∃ t, o = .next t

/-! ### Legal states -/

/-- Both memories are in canonical form, and data RAM lists RAM addresses only (20 R84). -/
abbrev State.memoryOk (s : State) : Prop :=
  Memory.wf s.data = true ∧ Memory.wf s.prog = true ∧ inRange Config.ramBase 0x10000 s.data = true

/-- PC<0>, W15<0> and SPLIM<0> are 0 (10 R23, R24; 41 R171). -/
abbrev State.evenOk (s : State) : Prop :=
  s.pc.getLsbD 0 = false ∧ s.sp.getLsbD 0 = false ∧ s.splim.getLsbD 0 = false

/-- The unimplemented bits of CORCON, INTCON1, INTCON2 and INTTREG read 0 (10 R28, R31, R40, R62). -/
abbrev State.reservedOk (s : State) : Prop :=
  s.corcon &&& 0xE000#16 = 0 ∧ s.intcon1 &&& 0x0021#16 = 0 ∧ s.intcon2 &&& 0x3FF8#16 = 0 ∧
    s.inttreg &&& 0xF080#16 = 0

/-- OAB is OA or OB, and SAB is SA or SB (10 R25). -/
abbrev State.accStatusOk (s : State) : Prop :=
  s.sr.getLsbD 11 = (s.sr.getLsbD 15 || s.sr.getLsbD 14) ∧ s.sr.getLsbD 10 = (s.sr.getLsbD 13 || s.sr.getLsbD 12)

/-- The bits of IFSx, IECx and IPCx that belong to no implemented source read 0 (10 R41). -/
abbrev State.sourcesOk (s : State) : Prop :=
  (∀ k : Fin 3, regAt s.ifs k &&& ~~~flagMask s.device k = 0) ∧
    (∀ k : Fin 3, regAt s.iec k &&& ~~~flagMask s.device k = 0) ∧
    (∀ j : Fin 11, regAt s.ipc j &&& ~~~priorityMask s.device j = 0)

/-- While a `DISI` is active the count is not zero (60 R241). -/
abbrev State.disiOk (s : State) : Prop := s.disiActive = true → s.disicnt ≠ 0

/-! ### What stays unchanged -/

/-- Every byte of both memories reads as before. -/
def sameMemory (s t : State) : Prop :=
  (∀ a, readByte t.data a = readByte s.data a) ∧ (∀ a, readByte t.prog a = readByte s.prog a)

/-- Every byte of both memories but the two data bytes from `a` on reads as before. -/
def sameMemoryBut (s t : State) (a : Nat) : Prop :=
  (∀ b, b ≠ a → b ≠ a + 1 → readByte t.data b = readByte s.data b) ∧ (∀ b, readByte t.prog b = readByte s.prog b)

/-- Nothing changed but the pc, the draw counter and the fields in which `t` differs by the record `u` built on `s`. The
record names what an instruction writes; the pc may always change. -/
def frame (u t : State) : Prop := t = { u with pc := t.pc, draws := t.draws }

end Sys2Proof.Machine
end

