-- ==== Sys2Proof/Certificates/Slice0/Obligations.lean ====
section
/-! DEFINITION. The statements for the provers. Every docstring names the rule of spec/ that the statement formalises, or
says that it rests on a choice of the model and names the log entry. -/

open Sys2Proof Sys2Proof.Machine

/-! ### Encoding -/

/-- Decoding the encoding of a well-formed instruction gives the instruction and the words after it (30 R115-R117). -/
def Obligations.DecodeOfEncodeIsTheInstruction : Prop :=
  ∀ (i : Instr) (rest : List Word24), i.wellFormed = true → decode (encode i ++ rest) = .ok (i, rest)

/-- Whatever decodes is well formed and encodes back to the words it was read from (30 R115-R117). -/
def Obligations.EncodeOfDecodeIsTheWords : Prop :=
  ∀ (ws : List Word24) (i : Instr) (rest : List Word24),
    decode ws = .ok (i, rest) → i.wellFormed = true ∧ encode i ++ rest = ws

/-- A word that matches none of the eight rows is refused by name, and stops the run where the core agent supplies
nothing (30 R118). -/
def Obligations.WordsOfNoRowAreRefused : Prop :=
  ∀ w : Word24,
    (w &&& 0xFFC000#24 ≠ 0xFC0000#24 ∧ w ≠ 0x064000#24 ∧ w ≠ 0xFE0000#24 ∧
      w &&& 0xFFFFFE#24 ≠ 0xFE4000#24 ∧ w &&& 0xFF0001#24 ≠ 0x040000#24 ∧ w &&& 0xFF0000#24 ≠ 0x000000#24 ∧
      w &&& 0xF00000#24 ≠ 0x200000#24 ∧ w &&& 0xF80000#24 ≠ 0x880000#24) →
    (∀ rest, decode (w :: rest) = .error (.noRow w)) ∧
      ∀ (s : State) (t : Turn), s.progImpl s.pc.toNat = true → readProg s.prog s.pc.toNat = w → t.core = none →
        s.instruction t = .refused (.undecodable w)

/-- Words written out in 95 section 2.13 decode to the instructions given there. -/
def Obligations.WordsOfTheSpecDecode : Prop :=
  decodeTableWord 24 0xFC0003 = some (.disi 3) ∧ decodeTableWord 24 0x064000 = some .retfie ∧
    decodeTableWord 24 0xFE0000 = some .reset ∧ decodeTableWord 24 0xFE4001 = some (.pwrsav .idle) ∧
    decodeTableWord 48 0x00007F04FFFE = some (.goto 0x7FFFFE#23) ∧ decodeTableWord 24 0x00ABCD = some (.nop 0xABCD) ∧
    decodeTableWord 24 0x224440 = some (.movLit 0x2444 0) ∧ decodeTableWord 24 0x880520 = some (.movWsF 0 0x00A4) ∧
    decodeTableWord 24 0xFC4000 = none ∧ decodeTableWord 24 0x064001 = none

/-! ### The instructions: what each does, and that it changes nothing else -/

/-- `DISI #k` loads the count, sets DISI unless k is 0, and changes nothing else (40 R131). -/
def Obligations.DisiLoadsTheCount : Prop :=
  ∀ (k : BitVec 14) (s : State), ∃ t, exec (.disi k) s = .next t ∧
    t.disicnt = k ∧ t.disiActive = decide (k ≠ 0) ∧
    (∀ b, b ≠ 14 → t.intcon2.getLsbD b = s.intcon2.getLsbD b) ∧
    (s.pc.toNat + 2 < 0x800000 → t.pc = s.pc + 2) ∧
    frame { s with disicnt := t.disicnt, intcon2 := t.intcon2 } t ∧ sameMemory s t

/-- `RETFIE` with its frame in data RAM takes pc, SRL and IPL3 from the frame, moves W15 down by 4 and changes nothing
else, whatever NSTDIS is (40 R135, R136; the frame layout is the spec's decision D3, log 17). With W15 = 0x0000 the pops
borrow to 0xFFFE, and whether that raises the stack error is free (log 40): either the same holds, or STKERR is set and
the popped words and W15 are free (42 R190, log 20). -/
def Obligations.RetfieRestoresTheFrame : Prop :=
  ∀ s : State, s.sp.getLsbD 0 = false → 0x0800 ≤ (s.sp - 2#16).toNat → 0x0800 ≤ (s.sp - 4#16).toNat →
    (s.splimArmed = true → (s.sp - 2#16).toNat ≤ s.splim.toNat ∧ (s.sp - 4#16).toNat ≤ s.splim.toNat) →
    s.dataImpl (s.sp - 2#16) = true → s.dataImpl (s.sp - 4#16) = true →
    let hi := readWord s.data (s.sp - 2#16).toNat
    let lo := readWord s.data (s.sp - 4#16).toNat
    ∃ t, exec .retfie s = .next t ∧ t.sr.extractLsb' 8 8 = s.sr.extractLsb' 8 8 ∧
      (∀ b, b ≠ 3 → t.corcon.getLsbD b = s.corcon.getLsbD b) ∧ (∀ d, d ≠ 15#4 → t.getW d = s.getW d) ∧
      ((t.sp = s.sp - 4#16 ∧ t.srl = hi.extractLsb' 8 8 ∧ t.ipl3 = hi.getLsbD 7 ∧
          t.pc = hi.extractLsb' 0 7 ++ lo.extractLsb' 1 15 ++ 0#1 ∧ t.intcon1 = s.intcon1) ∨
        (s.sp = 0 ∧ t.sp.getLsbD 0 = false ∧ t.intcon1 = s.intcon1 ||| 0x0004#16)) ∧
      frame { s with w := t.w, sr := t.sr, corcon := t.corcon, intcon1 := t.intcon1 } t ∧ sameMemory s t

/-- `RETFIE` one of whose pops is below 0x0800 or above an armed SPLIM raises the stack error; all that it may change is
W15, SRL, IPL3, the pc and STKERR (42 R195, R196, 40 R136 case e). A W15 that falls below 0x0800 is W15 - 4 (40 R136 case
e, 42 R196); any other W15 and the words popped are free, an even W15 (42 R190, 93 U3; log 20). That W15 - 4 decides
which of the two holds is the model's choice (log 20). -/
def Obligations.RetfieOffTheStackRaisesStackError : Prop :=
  ∀ s : State, s.sp.getLsbD 0 = false →
    ((s.sp - 2#16).toNat < 0x0800 ∨ (s.sp - 4#16).toNat < 0x0800 ∨
      (s.splimArmed = true ∧
        (s.splim.toNat < (s.sp - 2#16).toNat ∨ s.splim.toNat < (s.sp - 4#16).toNat))) →
    s.dataImpl (s.sp - 2#16) = true → s.dataImpl (s.sp - 4#16) = true →
    ∃ t, exec .retfie s = .next t ∧ ((s.sp - 4#16).toNat < 0x0800 → t.sp = s.sp - 4#16) ∧ t.sp.getLsbD 0 = false ∧
      t.intcon1 = s.intcon1 ||| 0x0004#16 ∧
      t.sr.extractLsb' 8 8 = s.sr.extractLsb' 8 8 ∧ (∀ b, b ≠ 3 → t.corcon.getLsbD b = s.corcon.getLsbD b) ∧
      (∀ d, d ≠ 15#4 → t.getW d = s.getW d) ∧
      frame { s with w := t.w, sr := t.sr, corcon := t.corcon, intcon1 := t.intcon1 } t ∧ sameMemory s t

/-- `RETFIE` one of whose pops is at an unimplemented address raises the address error: ADDRERR is set, and the raise is
settled against the CPU priority that the return left (42 R206, R208, R212, 60 R245). STKERR stays where it is 1 (40 R136
case c) and is set by a pop off the stack and by a W15 that ends below 0x0800; else only a pop that borrows below 0x0000 may
set it, which is free (log 40). W15 and the words popped are free, an even W15 (42 R190, 93 U3; log 20). -/
def Obligations.RetfieFromUnimplementedDataRaisesAddressError : Prop :=
  ∀ s : State, s.sp.getLsbD 0 = false →
    (s.dataImpl (s.sp - 2#16) = false ∨ s.dataImpl (s.sp - 4#16) = false) →
    let off := (s.sp - 2#16).toNat < 0x0800 ∨ (s.sp - 4#16).toNat < 0x0800 ∨
      (s.splimArmed = true ∧ (s.splim.toNat < (s.sp - 2#16).toNat ∨ s.splim.toNat < (s.sp - 4#16).toNat))
    ∃ u : State, exec .retfie s = u.settleHardTrap .address ∧ u.trapFlag .address = true ∧ u.sp.getLsbD 0 = false ∧
      (s.trapFlag .stack = true ∨ off ∨ u.sp.toNat < 0x0800 → u.trapFlag .stack = true) ∧
      (u.trapFlag .stack = true → s.trapFlag .stack = true ∨ off ∨ u.sp.toNat < 0x0800 ∨ s.sp.toNat < 4) ∧
      (∀ b, b ≠ 2 → b ≠ 3 → u.intcon1.getLsbD b = s.intcon1.getLsbD b) ∧
      u.sr.extractLsb' 8 8 = s.sr.extractLsb' 8 8 ∧ (∀ b, b ≠ 3 → u.corcon.getLsbD b = s.corcon.getLsbD b) ∧
      (∀ d, d ≠ 15#4 → u.getW d = s.getW d) ∧
      frame { s with w := u.w, sr := u.sr, corcon := u.corcon, intcon1 := u.intcon1 } u ∧ sameMemory s u

/-- `RESET` puts every register that the spec gives a reset value to it, the IPC bits of no implemented source and bit 3 of
each nibble to 0 (10 R41, R50), TRAPR to 0, and leaves program memory and the
device as they are (40 R138, 10 R69). TRAPR = 0 after this reset is the spec's general knowledge (10 R65, log 15); that
the pins' levels stay is the model's choice (log 12). -/
def Obligations.ResetInstructionResetsTheDevice : Prop :=
  ∀ s : State, ∃ t, exec .reset s = .next t ∧
    t.pc = 0 ∧ t.sp = 0x0800#16 ∧ t.sr = 0 ∧ t.corcon = 0x0020#16 ∧ t.intcon1 = 0 ∧ t.intcon2 = 0 ∧
    (∀ k : Fin 3, regAt t.ifs k = 0 ∧ regAt t.iec k = 0) ∧
    (∀ n, implementsSource s.device n = true → t.irqPriority n = 4) ∧
    (∀ (j : Fin 11) (b : Nat), b % 4 = 3 ∨ implementsSource s.device (4 * j.val + b / 4) = false →
      (regAt t.ipc j).getLsbD b = false) ∧
    (s.device.sources = Config.listedSources → t.ipc = State.reset.ipc) ∧
    t.inttreg = 0 ∧ t.disicnt = 0 ∧ t.splimArmed = false ∧ t.trapr = false ∧ t.pmode = .run ∧
    t.prog = s.prog ∧ t.device = s.device ∧ t.pin = s.pin

/-- `PWRSAV` enters Sleep or Idle with the pc at the next instruction and changes nothing else (40 R139; that it does so
with a `DISI` active too is the model's choice, log 24). -/
def Obligations.PwrsavEntersTheMode : Prop :=
  ∀ (m : PowerSave) (s : State), ∃ t, exec (.pwrsav m) s = .next t ∧
    t.pmode = (if m = .sleep then .sleep else .idle) ∧ (s.pc.toNat + 2 < 0x800000 → t.pc = s.pc + 2) ∧
    frame { s with pmode := t.pmode } t ∧ sameMemory s t

/-- `GOTO` to an implemented address loads the pc and changes nothing else; to an unimplemented one it loads the pc too
and raises the address error, which goes on to a next state where no higher hard trap stands against it (40 R140, 42 R207,
R208, 60 R245). -/
def Obligations.GotoLoadsThePc : Prop :=
  ∀ (addr : ProgAddr) (s : State), (Instr.goto addr).wellFormed = true →
    (s.progImpl addr.toNat = true →
      ∃ t, exec (.goto addr) s = .next t ∧ t.pc = addr ∧ frame s t ∧ sameMemory s t) ∧
    (s.progImpl addr.toNat = false →
      exec (.goto addr) s = State.settleHardTrap { s with pc := addr, intcon1 := s.intcon1 ||| 0x0008#16 } .address) ∧
    (s.progImpl addr.toNat = false → s.trapFlag .oscillator = false → s.cpuIpl < 13 →
      exec (.goto addr) s = .next { s with pc := addr, intcon1 := s.intcon1 ||| 0x0008#16 })

/-- `NOP` advances the pc and changes nothing else, whatever its ignored bits are (40 R141). -/
def Obligations.NopAdvancesThePc : Prop :=
  ∀ (x : Word) (s : State), ∃ t, exec (.nop x) s = .next t ∧
    (s.pc.toNat + 2 < 0x800000 → t.pc = s.pc + 2) ∧ frame s t ∧ sameMemory s t

/-- `MOV #k, Wd` gives W`d` the literal and changes no other register; W15 keeps bit 0 at 0 (41 R182, 10 R23). A literal
below 0x0800 for W15 raises the stack error, and what stays in W15 is then free (42 R196, R190, 93 U3); that R196 and R190
apply to this instruction, of which R182 lists no exception, is the model's reading (log 19). -/
def Obligations.MovLitWritesTheRegister : Prop :=
  ∀ (k : Word) (d : BitVec 4) (s : State), ∃ t, exec (.movLit k d) s = .next t ∧
    (d ≠ 15#4 → t.getW d = k) ∧ (d = 15#4 → 0x0800 ≤ k.toNat → t.sp = k &&& 0xFFFE#16) ∧
    (d = 15#4 → t.sp.getLsbD 0 = false) ∧ (∀ e, e ≠ d → t.getW e = s.getW e) ∧
    t.intcon1 = (if d = 15#4 ∧ k.toNat < 0x0800 then s.intcon1 ||| 0x0004#16 else s.intcon1) ∧
    (s.pc.toNat + 2 < 0x800000 → t.pc = s.pc + 2) ∧
    frame { s with w := t.w, intcon1 := t.intcon1 } t ∧ sameMemory s t

/-- `MOV Ws, f` answers a next state at every even implemented data address, with the pc advanced (41 R183). -/
def Obligations.MovWsFCompletesAtEveryImplementedAddress : Prop :=
  ∀ (src : BitVec 4) (f : Word) (s : State), (Instr.movWsF src f).wellFormed = true → s.dataImpl f = true →
    s.pc.toNat + 2 < 0x800000 → ∃ t, exec (.movWsF src f) s = .next t ∧ t.pc = s.pc + 2

/-- `MOV Ws, f` into data RAM: the word at f reads as W`s`, every other byte and every register is as before (41 R183,
20 R85). The address stored to is f. -/
def Obligations.MovWsFStoresOneWordInRam : Prop :=
  ∀ (src : BitVec 4) (f : Word) (s : State), (Instr.movWsF src f).wellFormed = true → s.dataImpl f = true →
    0x0800 ≤ f.toNat → Memory.wf s.data = true →
    ∃ t, exec (.movWsF src f) s = .next t ∧ readWord t.data f.toNat = s.getW src ∧
      readByte t.data f.toNat = (s.getW src).extractLsb' 0 8 ∧
      (s.pc.toNat + 2 < 0x800000 → t.pc = s.pc + 2) ∧
      frame { s with data := t.data } t ∧ sameMemoryBut s t f.toNat

/-- `MOV Ws, f` to an unimplemented data address is refused by name (41 R183). -/
def Obligations.MovWsFToUnimplementedDataIsRefused : Prop :=
  ∀ (src : BitVec 4) (f : Word) (s : State), (Instr.movWsF src f).wellFormed = true → s.dataImpl f = false →
    exec (.movWsF src f) s = .refused (.unimplementedDataWrite f)

/-- `MOV Ws, f` to 0x0000-0x001E writes the working register that stands there; W15 keeps bit 0 at 0 (41 R183, 10 R22,
R23). A value below 0x0800 for W15 raises the stack error, and what stays in W15 is then free (42 R196, R190, 93 U3); that
R196 and R190 apply to a store to 0x001E, of which R183 lists no exception, is the model's reading (log 19). -/
def Obligations.MovWsFWritesWorkingRegisters : Prop :=
  ∀ (src d : BitVec 4) (s : State), s.dataImpl (BitVec.ofNat 16 (2 * d.toNat)) = true →
    let v := s.getW src
    ∃ t, exec (.movWsF src (BitVec.ofNat 16 (2 * d.toNat))) s = .next t ∧
      (d ≠ 15#4 → t.getW d = v) ∧ (d = 15#4 → 0x0800 ≤ v.toNat → t.sp = v &&& 0xFFFE#16) ∧
      (d = 15#4 → t.sp.getLsbD 0 = false) ∧ (∀ e, e ≠ d → t.getW e = s.getW e) ∧
      t.intcon1 = (if d = 15#4 ∧ v.toNat < 0x0800 then s.intcon1 ||| 0x0004#16 else s.intcon1) ∧
      frame { s with w := t.w, intcon1 := t.intcon1 } t ∧ sameMemory s t

/-- `MOV Ws, f` to OSCCON may change CF alone, and to a place of register space where no register of the spec stands it
changes nothing (41 R173, R183; what CF becomes is free: log 10; the rest of register space: log 5; the addresses `ADDR_*`
are the device's: log 4). -/
def Obligations.MovWsFElsewhereInRegisterSpace : Prop :=
  ∀ (src : BitVec 4) (f : Word) (s : State), (Instr.movWsF src f).wellFormed = true → s.dataImpl f = true →
    0x0020 ≤ f.toNat → f.toNat < 0x0800 → addressesOk s.device.addresses = true →
    let m := s.device.addresses
    (f.toNat = m.osccon → ∃ t, exec (.movWsF src f) s = .next t ∧ frame { s with cf := t.cf } t ∧ sameMemory s t) ∧
    (f.toNat ∉ [m.sr, m.corcon, m.disicnt, m.splim, m.rcon, m.osccon] →
      (f.toNat < 0x0080 ∨ (0x0088 < f.toNat ∧ f.toNat < 0x0094) ∨ (0x0098 < f.toNat ∧ f.toNat < 0x00A4) ∨
        (0x00B8 < f.toNat ∧ f ≠ 0x00E0#16)) →
      ∃ t, exec (.movWsF src f) s = .next t ∧ frame s t ∧ sameMemory s t)

/-- A write to SR changes IPL<2:0> only while NSTDIS is 0, gives N, OV, Z and C the written bits, and leaves every other
bit (41 R160, R161). SR stands at ADDR_SR (log 4). -/
def Obligations.WriteToSrGatesIpl : Prop :=
  ∀ (src : BitVec 4) (s : State), addressesOk s.device.addresses = true →
    let f := BitVec.ofNat 16 s.device.addresses.sr
    s.dataImpl f = true →
    ∃ t, exec (.movWsF src f) s = .next t ∧
      t.ipl = (if s.nstdis = true then s.ipl else (s.getW src).extractLsb' 5 3) ∧
      (∀ b, b < 4 → t.sr.getLsbD b = (s.getW src).getLsbD b) ∧ t.sr.getLsbD 4 = s.sr.getLsbD 4 ∧
      (∀ b, 8 ≤ b → t.sr.getLsbD b = s.sr.getLsbD b) ∧ frame { s with sr := t.sr } t ∧ sameMemory s t

/-- A write to CORCON clears IPL3 or leaves it, never sets it; DL and the unimplemented bits stay (41 R162, 10
R28). CORCON stands at ADDR_CORCON (log 4). -/
def Obligations.WriteToCorconClearsIpl3 : Prop :=
  ∀ (src : BitVec 4) (s : State), addressesOk s.device.addresses = true →
    let f := BitVec.ofNat 16 s.device.addresses.corcon
    s.dataImpl f = true →
    ∃ t, exec (.movWsF src f) s = .next t ∧
      t.ipl3 = (s.ipl3 && (s.getW src).getLsbD 3) ∧
      (∀ b, 0x18F7#16 &&& (1#16 <<< b) ≠ 0 → t.corcon.getLsbD b = (s.getW src).getLsbD b) ∧
      (∀ b, b ≠ 3 → 0x18F7#16 &&& (1#16 <<< b) = 0 → t.corcon.getLsbD b = s.corcon.getLsbD b) ∧
      frame { s with corcon := t.corcon } t ∧ sameMemory s t

/-- A write to INTCON1: MATHERR is cleared by a 0 unless an enabled accumulator overflow persists; every other
implemented bit takes the written value (41 R166, R168). -/
def Obligations.WriteToIntcon1KeepsMathErr : Prop :=
  ∀ (src : BitVec 4) (s : State), s.dataImpl 0x0080#16 = true →
    let persists := (s.sr.getLsbD 15 && s.intcon1.getLsbD 10) || (s.sr.getLsbD 14 && s.intcon1.getLsbD 9)
    ∃ t, exec (.movWsF src 0x0080#16) s = .next t ∧
      ((s.getW src).getLsbD 4 = false → t.trapFlag .math = (s.trapFlag .math && persists)) ∧
      ((s.getW src).getLsbD 4 = true → t.trapFlag .math = true) ∧
      (∀ b, b < 16 → b ≠ 0 → b ≠ 4 → b ≠ 5 → t.intcon1.getLsbD b = (s.getW src).getLsbD b) ∧
      t.intcon1.getLsbD 0 = s.intcon1.getLsbD 0 ∧ t.intcon1.getLsbD 5 = s.intcon1.getLsbD 5 ∧
      frame { s with intcon1 := t.intcon1 } t ∧ sameMemory s t

/-- A write to INTCON2 leaves DISI and gives ALTIVT and the edge polarities the written bits (41 R169). -/
def Obligations.WriteToIntcon2LeavesDisi : Prop :=
  ∀ (src : BitVec 4) (s : State), s.dataImpl 0x0082#16 = true →
    ∃ t, exec (.movWsF src 0x0082#16) s = .next t ∧ t.disiActive = s.disiActive ∧
      t.altivt = (s.getW src).getLsbD 15 ∧ (∀ x, t.edgePolarity x = (s.getW src).getLsbD x) ∧
      (∀ b, 3 ≤ b → b < 15 → t.intcon2.getLsbD b = s.intcon2.getLsbD b) ∧
      frame { s with intcon2 := t.intcon2 } t ∧ sameMemory s t

/-- A write to IFS`k` gives the flag of every implemented source of the register the written bit and changes no other
flag (41 R163). -/
def Obligations.WriteToFlagsTakesTheWrittenBits : Prop :=
  ∀ (src : BitVec 4) (k : Fin 3) (s : State), s.dataImpl (BitVec.ofNat 16 (0x84 + 2 * k.val)) = true →
    ∃ t, exec (.movWsF src (BitVec.ofNat 16 (0x84 + 2 * k.val))) s = .next t ∧
      (∀ n, t.irqFlag n =
        if n / 16 = k.val ∧ implementsSource s.device n = true then (s.getW src).getLsbD (n % 16) else s.irqFlag n) ∧
      frame { s with ifs := t.ifs } t ∧ sameMemory s t

/-- A write to IEC`k` gives the enable of every implemented source of the register the written bit and changes no other
enable (41 R164). -/
def Obligations.WriteToEnablesTakesTheWrittenBits : Prop :=
  ∀ (src : BitVec 4) (k : Fin 3) (s : State), s.dataImpl (BitVec.ofNat 16 (0x94 + 2 * k.val)) = true →
    ∃ t, exec (.movWsF src (BitVec.ofNat 16 (0x94 + 2 * k.val))) s = .next t ∧
      (∀ n, t.irqEnable n =
        if n / 16 = k.val ∧ implementsSource s.device n = true then (s.getW src).getLsbD (n % 16) else s.irqEnable n) ∧
      frame { s with iec := t.iec } t ∧ sameMemory s t

/-- A write to IPC`j` gives every implemented source of the register the written priority and changes no other priority;
bit 3 of every nibble stays (41 R165). Beside it only the model's record of the old priorities may change (log 29). -/
def Obligations.WriteToPrioritiesTakesTheWrittenFields : Prop :=
  ∀ (src : BitVec 4) (j : Fin 11) (s : State), s.dataImpl (BitVec.ofNat 16 (0xA4 + 2 * j.val)) = true →
    ∃ t, exec (.movWsF src (BitVec.ofNat 16 (0xA4 + 2 * j.val))) s = .next t ∧
      (∀ n, n < 44 → t.irqPriority n =
        if n / 4 = j.val ∧ implementsSource s.device n = true then
          ((s.getW src).extractLsb' (4 * (n % 4)) 3).toNat
        else s.irqPriority n) ∧
      (∀ (m : Fin 11) (b : Nat), b % 4 = 3 → (regAt t.ipc m).getLsbD b = (regAt s.ipc m).getLsbD b) ∧
      frame { s with ipc := t.ipc, ipcStale := t.ipcStale } t ∧ sameMemory s t

/-- A write to INTTREG changes nothing, and a read answers what was last latched (41 R172). -/
def Obligations.WriteToInttregChangesNothing : Prop :=
  ∀ (src : BitVec 4) (s : State), s.dataImpl 0x00E0#16 = true →
    ∃ t, exec (.movWsF src 0x00E0#16) s = .next t ∧ t.inttreg = s.inttreg ∧ frame s t ∧ sameMemory s t ∧
      s.readDataWord 0x00E0#16 = s.inttreg

/-- A write to DISICNT sets the count while a `DISI` is active, ends the `DISI` with 0, and never makes one active
(41 R170; the count after a non-zero write with no `DISI` is free, log 23). DISICNT stands at ADDR_DISICNT (log 4). -/
def Obligations.WriteToDisicntNeverDisables : Prop :=
  ∀ (src : BitVec 4) (s : State), addressesOk s.device.addresses = true →
    let f := BitVec.ofNat 16 s.device.addresses.disicnt
    s.dataImpl f = true →
    let k := (s.getW src).extractLsb' 0 14
    ∃ t, exec (.movWsF src f) s = .next t ∧
      (s.disiActive = true → t.disicnt = k ∧ t.disiActive = decide (k ≠ 0)) ∧
      (s.disiActive = false → t.disiActive = false ∧ (k = 0 → t.disicnt = 0)) ∧
      (∀ b, b ≠ 14 → t.intcon2.getLsbD b = s.intcon2.getLsbD b) ∧
      frame { s with disicnt := t.disicnt, intcon2 := t.intcon2 } t ∧ sameMemory s t

/-- A word write to SPLIM sets the limit, its bit 0 at 0, and arms the overflow check (41 R171). SPLIM stands at ADDR_SPLIM
(log 4). -/
def Obligations.WriteToSplimArmsTheCheck : Prop :=
  ∀ (src : BitVec 4) (s : State), addressesOk s.device.addresses = true →
    let f := BitVec.ofNat 16 s.device.addresses.splim
    s.dataImpl f = true →
    ∃ t, exec (.movWsF src f) s = .next t ∧ t.splim = s.getW src &&& 0xFFFE#16 ∧ t.splimArmed = true ∧
      frame { s with splim := t.splim, splimArmed := t.splimArmed } t ∧ sameMemory s t

/-- A write to RCON clears TRAPR with a 0 and does not set it (41 R173; general knowledge of the spec, log 15). RCON
stands at ADDR_RCON (log 4). -/
def Obligations.WriteToRconClearsTrapr : Prop :=
  ∀ (src : BitVec 4) (s : State), addressesOk s.device.addresses = true →
    let f := BitVec.ofNat 16 s.device.addresses.rcon
    s.dataImpl f = true →
    ∃ t, exec (.movWsF src f) s = .next t ∧ t.trapr = (s.trapr && (s.getW src).getLsbD 15) ∧
      frame { s with trapr := t.trapr } t ∧ sameMemory s t

/-- No instruction but `RETFIE` sets IPL3 (10 R29). -/
def Obligations.OnlyRetfieCanSetIpl3 : Prop :=
  ∀ (i : Instr) (s t : State), i ≠ .retfie → exec i s = .next t → t.ipl3 = true → s.ipl3 = true

/-- While NSTDIS is 1 no instruction of the opcode table but `RETFIE` and `RESET` changes IPL<2:0> (41 R161). An exception
entry does (60 R253): it is no instruction. -/
def Obligations.NestingDisabledFreezesIpl : Prop :=
  ∀ (i : Instr) (s t : State), i ≠ .retfie → s.nstdis = true → exec i s = .next t →
    t.ipl = s.ipl ∨ i = .reset

/-! ### The clock -/

/-- `Tick` counts DISICNT down and ends the `DISI` at zero; at zero it does nothing to either (40 R133). A soft trap that is
requested grows older by one cycle, up to two, and the age of one that is not is 0 (60 R248; the counters are the model's
reading of `trap_skid`, log 26). Nothing else changes. -/
def Obligations.TickCountsDisicntDown : Prop :=
  ∀ s : State,
    (s.disicnt = 0 → s.tick.disicnt = 0 ∧ s.tick.intcon2 = s.intcon2) ∧
    (s.disicnt ≠ 0 → s.tick.disicnt = s.disicnt - 1 ∧
      (s.disicnt = 1 → s.tick.disiActive = false) ∧ (s.disicnt ≠ 1 → s.tick.intcon2 = s.intcon2)) ∧
    (∀ b, b ≠ 14 → s.tick.intcon2.getLsbD b = s.intcon2.getLsbD b) ∧
    s.tick.stkAge = (if s.intcon1.getLsbD 2 = true ∧ s.cpuIpl < 12 then min 2 (s.stkAge + 1) else 0) ∧
    s.tick.mathAge = (if s.intcon1.getLsbD 4 = true ∧ s.cpuIpl < 11 then min 2 (s.mathAge + 1) else 0) ∧
    let u := s.tick
    u = { s with disicnt := u.disicnt, intcon2 := u.intcon2, stkAge := u.stkAge, mathAge := u.mathAge }

/-- After `DISI #k` and any number c of cycles the count is max(0, k - c), and the `DISI` is active exactly while it is
not zero (40 R133). -/
def Obligations.DisiLastsItsCount : Prop :=
  ∀ (k : BitVec 14) (s t : State) (c : Nat), exec (.disi k) s = .next t →
    (t.ticks c).disicnt.toNat = k.toNat - c ∧ (t.ticks c).disiActive = decide (c < k.toNat)

/-! ### Arbitration -/

/-- An interrupt source is requested exactly where its flag and its enable are 1, its priority exceeds the CPU priority and
no active `DISI` masks its priority (60 R240, R241). -/
def Obligations.InterruptRequestsPassTheGates : Prop :=
  ∀ (s : State) (n : Nat), s.irqRequested s.ipc n = true ↔
    s.irqFlag n = true ∧ s.irqEnable n = true ∧ s.cpuIpl < s.irqPriority n ∧
      ¬(s.intcon2.getLsbD 14 = true ∧ 1 ≤ s.irqPriority n ∧ s.irqPriority n ≤ 6)

/-- Arbitration: the requested trap of the greatest level; where no trap is requested, the requested interrupt of an
implemented source with the greatest priority, and among those the least vector; where nothing is requested, none (60
R243). A trap is written as its vector, its level and its bit of INTCON1 (60 R221, R226). -/
def Obligations.ArbitrationPicksTheWinner : Prop :=
  ∀ s : State,
    let trap := fun p : Nat × Nat × Nat =>
      p ∈ [(1, 14, 1), (2, 13, 3), (3, 12, 2), (4, 11, 4)] ∧ s.intcon1.getLsbD p.2.2 = true ∧ s.cpuIpl < p.2.1
    let irq := fun n : Nat => implementsSource s.device n = true ∧ s.irqRequested s.ipc n = true
    match s.arbitrate s.ipc with
    | none => (∀ p, ¬trap p) ∧ ∀ n, ¬irq n
    | some r =>
      (∃ p, trap p ∧ r = ⟨p.1, p.2.1⟩ ∧ ∀ q, trap q → q.2.1 ≤ p.2.1) ∨
      ((∀ p, ¬trap p) ∧ ∃ n, irq n ∧ r = ⟨n + 8, s.irqPriority n⟩ ∧
        ∀ m, irq m → s.irqPriority m < s.irqPriority n ∨ (s.irqPriority m = s.irqPriority n ∧ n ≤ m))

/-- While a `DISI` is active no request of level 1 to 6 is returned (40 R132, 60 R241). -/
def Obligations.DisiMasksLevelsOneToSix : Prop :=
  ∀ (s : State) (r : Request), s.disiActive = true → s.arbitrate s.ipc = some r → r.level = 7 ∨ 11 ≤ r.level

/-- Whatever arbitration returns has a level above the CPU priority; at a CPU priority of 7 or more it is a trap
(60 R226, R240; 70 R316). -/
def Obligations.ArbitrationObeysTheCpuPriority : Prop :=
  ∀ (s : State) (r : Request), s.arbitrate s.ipc = some r → s.cpuIpl < r.level ∧ (7 ≤ s.cpuIpl → 11 ≤ r.level)

/-! ### Entry, return and hard traps -/

/-- The exception entry where no register of the spec stands at an implemented push address: the two words pushed, W15 up
by 4, the new priority, INTTREG, the pc from the vector, Run, four cycles, and nothing else (60 R250). The two words are
stored at W15 and W15 + 2 where those lie in implemented RAM; a push elsewhere does not land, and one that trips a stack
check is performed (log 21). A push below 0x0800 or above an armed SPLIM, or a W15 that ends below 0x0800, raises the
stack error, and a push to an unimplemented address the address error, after the entry is complete (60 R252, 42 R195-R197,
R206, 70 R325; that a push that does not land raises it is the spec's R252, and which pushes land is log 21). The second
part holds whatever stands at the push addresses. -/
def Obligations.ExceptionEntrySavesAndRaises : Prop :=
  (∀ (s : State) (v l : Nat), v < 62 → l < 16 → Memory.wf s.data = true → s.sp.getLsbD 0 = false →
    let lo := s.sp
    let hi := s.sp + 2#16
    (s.dataImpl lo = true → ∀ r, placeOf s.device lo ≠ .sfr r) →
    (s.dataImpl hi = true → ∀ r, placeOf s.device hi ≠ .sfr r) →
    let location := (if s.altivt = true then 0x000084 else 0x000004) + 2 * v
    s.progImpl location = true →
    let lands := fun a : Word => s.dataImpl a = true ∧ 0x0800 ≤ a.toNat
    let missing := s.dataImpl lo = false ∨ s.dataImpl hi = false
    let trips := lo.toNat < 0x0800 ∨ hi.toNat < 0x0800 ∨ (s.sp + 4#16).toNat < 0x0800 ∨
      (s.splimArmed = true ∧ (s.splim.toNat < lo.toNat ∨ s.splim.toNat < hi.toNat))
    ∃ t, (missing → s.takeException v l = t.settleHardTrap .address) ∧ (¬missing → s.takeException v l = .next t) ∧
      (lands lo → readWord t.data lo.toNat = s.pc.extractLsb' 0 16) ∧
      (lands hi → readWord t.data hi.toNat = s.srl ++ BitVec.ofBool s.ipl3 ++ s.pc.extractLsb' 16 7) ∧
      (∀ a, ¬(lands lo ∧ (a = lo.toNat ∨ a = lo.toNat + 1)) → ¬(lands hi ∧ (a = hi.toNat ∨ a = hi.toNat + 1)) →
        readByte t.data a = readByte s.data a) ∧
      t.sp = s.sp + 4#16 ∧ (∀ d, d ≠ 15#4 → t.getW d = s.getW d) ∧
      (trips → t.trapFlag .stack = true) ∧ (¬trips → t.trapFlag .stack = s.trapFlag .stack) ∧
      (missing → t.trapFlag .address = true) ∧ (¬missing → t.trapFlag .address = s.trapFlag .address) ∧
      (∀ b, b ≠ 2 → b ≠ 3 → t.intcon1.getLsbD b = s.intcon1.getLsbD b) ∧
      (8 ≤ l → t.cpuIpl = l) ∧
      (l < 8 → t.ipl3 = s.ipl3 ∧ t.ipl.toNat = if s.nstdis = true then 7 else l) ∧
      (∀ b, b < 5 ∨ 8 ≤ b → t.sr.getLsbD b = s.sr.getLsbD b) ∧
      (∀ b, b ≠ 3 → t.corcon.getLsbD b = s.corcon.getLsbD b) ∧
      (8 ≤ v → t.inttreg.extractLsb' 8 4 = BitVec.ofNat 4 l ∧ (t.inttreg.extractLsb' 0 7).toNat = v - 8) ∧
      t.pc = (readProg s.prog location).extractLsb' 1 22 ++ 0#1 ∧ t.pmode = .run ∧
      t.disicnt.toNat = s.disicnt.toNat - 4 ∧
      t.disiActive = (s.disiActive && !(decide (1 ≤ s.disicnt.toNat) && decide (s.disicnt.toNat ≤ 4))) ∧
      (∀ b, b ≠ 14 → t.intcon2.getLsbD b = s.intcon2.getLsbD b) ∧
      frame { s with
        data := t.data, w := t.w, sr := t.sr, corcon := t.corcon, intcon1 := t.intcon1, inttreg := t.inttreg,
        pmode := t.pmode, disicnt := t.disicnt, intcon2 := t.intcon2, inttregHold := t.inttregHold,
        irqSkid := t.irqSkid, tempPc := t.tempPc, tempSrl := t.tempSrl, stkAge := t.stkAge, mathAge := t.mathAge } t ∧
      (∀ a, readByte t.prog a = readByte s.prog a)) ∧
  (∀ (s t : State) (v l : Nat), s.takeException v l = .next t →
    (s.sp.toNat < 0x0800 ∨ (s.splimArmed = true ∧ s.splim.toNat < s.sp.toNat)) → t.trapFlag .stack = true)

/-- `RETFIE` undoes an exception entry: from any state that left the frame, W15, SPLIM and the device as the entry made
them, it restores the pc, SRL, IPL3 and W15 that were before the entry (40 R135, 60 R260). -/
def Obligations.RetfieUndoesTheEntry : Prop :=
  ∀ (s t u : State) (v l : Nat), Memory.wf s.data = true → s.sp.getLsbD 0 = false → s.pc.getLsbD 0 = false →
    0x0800 ≤ s.sp.toNat → s.sp.toNat + 4 < 0x10000 → (s.splimArmed = true → s.sp.toNat + 2 ≤ s.splim.toNat) →
    s.dataImpl s.sp = true → s.dataImpl (s.sp + 2#16) = true → s.takeException v l = .next t →
    u.sp = t.sp → (∀ a, s.sp.toNat ≤ a → a < s.sp.toNat + 4 → readByte u.data a = readByte t.data a) →
    u.splimArmed = t.splimArmed → u.splim = t.splim → u.device = t.device →
    ∃ r, exec .retfie u = .next r ∧ r.pc = s.pc ∧ r.srl = s.srl ∧ r.ipl3 = s.ipl3 ∧ r.cpuIpl = s.cpuIpl ∧ r.sp = s.sp

/-- What the raise of a hard trap leads to (60 R245): where a higher hard trap is pending or in progress the conflict is
due, and the CPU's next turn is the reset with TRAPR set, whatever the turn chooses (00 R12); else the model's fault at
its own level (92 D11, log 27), or a request at the boundary that follows. -/
def Obligations.HardTrapIsSettledByItsLevel : Prop :=
  ∀ (s : State) (t : Trap), (t = .oscillator ∨ t = .address) →
    let higher := (∃ u : Trap, t.level < u.level ∧ s.trapFlag u = true) ∨ (s.ipl3 = true ∧ t.level < s.cpuIpl)
    (higher → ∃ u, s.settleHardTrap t = .next u ∧ u = { s with conflictDue := true } ∧
      ∀ c : Turn, ∃ r, u.cpuTurn c = .next r ∧ r.trapr = true ∧ r.pc = 0 ∧ r.sp = 0x0800#16 ∧ r.intcon1 = 0 ∧
        r.sr = 0 ∧ r.corcon = 0x0020#16 ∧ r.pmode = .run ∧ r.conflictDue = false ∧ r.prog = s.prog) ∧
    (¬higher → s.conflictDue = false → s.cpuIpl = t.level →
      s.settleHardTrap t = .fault (.unacknowledgeableHardTrap t.level)) ∧
    (¬higher → s.cpuIpl ≠ t.level → s.settleHardTrap t = .next s)

/-- A requested hard trap is entered at the next turn of the running CPU, whatever the turn chooses (60 R224, R248). -/
def Obligations.HardTrapsAreEnteredAtOnce : Prop :=
  ∀ (s : State) (t : Turn) (u : Trap), s.pmode = .run → s.conflictDue = false → u.hard = true →
    s.trapRequested u = true →
    (∀ x : Trap, s.trapRequested x = true → x.level ≤ u.level) →
    s.cpuTurn t = s.atBoundary.takeException u.vector u.level

/-- After a deferral, and after a wake-up, whatever arbitration returns is entered (60 R247, R271). Where arbitration
returns none after a deferral, the deferred interrupt may still be entered, by the turn's choice (70 R321; at the level it
was deferred at, log 26). A boundary at which arbitration returned none, with that late entry or without, lets the next
one's interrupt be deferred once (60 R247). -/
def Obligations.DeferredRequestsAreEnteredNext : Prop :=
  (∀ (s : State) (t : Turn) (r : Request), s.pmode = .run → s.conflictDue = false → s.ipcStale = none →
    ((∃ v l, s.irqSkid = .deferred v l) ∨ s.irqSkid = .woken) → s.arbitrate s.ipc = some r →
    s.cpuTurn t = s.atBoundary.takeException r.vector r.level) ∧
  (∀ (s u : State) (t : Turn) (v l : Nat), s.pmode = .run → s.conflictDue = false → s.ipcStale = none →
    s.irqSkid = .deferred v l → s.arbitrate s.ipc = none → t.lateEntry = true →
    s.atBoundary.takeException v l = .next u → s.cpuTurn t = .next { u with irqSkid := .fresh }) ∧
  (∀ (s : State) (t : Turn) (r : Request), s.pmode = .run → s.conflictDue = false → s.ipcStale = none →
    s.irqSkid = .fresh → s.arbitrate s.ipc = some r → r.level < 8 →
    (t.defer = false → s.cpuTurn t = s.atBoundary.takeException r.vector r.level) ∧
    (t.defer = true →
      s.cpuTurn t = State.instruction { s.atBoundary with irqSkid := .deferred r.vector r.level } t))

/-- A soft trap that has been requestable for two cycles is entered (60 R248). -/
def Obligations.SoftTrapsWaitAtMostTwoCycles : Prop :=
  ∀ (s : State) (t : Turn) (u : Trap), s.pmode = .run → s.conflictDue = false →
    (u = .stack ∨ u = .math) → s.trapRequested u = true →
    2 ≤ (if u = .stack then s.stkAge else s.mathAge) →
    ∃ w : Trap, s.trapRequested w = true ∧ u.level ≤ w.level ∧
      s.cpuTurn t = s.atBoundary.takeException w.vector w.level

/-! ### Events of the environment, and wake-up -/

/-- `IrqEvent(n)` sets the flag of an implemented source, whatever its enable, its priority, the CPU priority, DISI and
the mode are, and changes no other flag (60 R230). -/
def Obligations.IrqEventSetsTheFlag : Prop :=
  ∀ (s : State) (n : Nat) (rest : List Input), s.inputs = .irq n :: rest → implementsSource s.device n = true →
    ∃ t, step s = .next t ∧ (∀ m, t.irqFlag m = (s.irqFlag m || decide (m = n))) ∧
      t = { s with ifs := t.ifs, inputs := rest }

/-- `PinEdge` records the level, and on the selected edge sets the flag of the pin's source and no other, where the device
has that source (60 R230, R232, 10 R41; that it has no effect where the device lacks it is log 42). Nothing else changes.
-/
def Obligations.PinEdgeRequestsOnTheSelectedEdge : Prop :=
  ∀ (s : State) (x : Fin 3) (dir : Edge),
    (s.pinEdge x dir).pin[x] = decide (dir = .rising) ∧
    (∀ y, y ≠ x → (s.pinEdge x dir).pin[y] = s.pin[y]) ∧
    let selected := (s.edgePolarity x = false ∧ dir = .rising) ∨ (s.edgePolarity x = true ∧ dir = .falling)
    let n := if x = 0 then 0 else if x = 1 then 16 else 17
    (selected → implementsSource s.device n = true →
      ∀ m, (s.pinEdge x dir).irqFlag m = (s.irqFlag m || decide (m = n))) ∧
    (¬selected ∨ implementsSource s.device n = false → (s.pinEdge x dir).ifs = s.ifs) ∧
    s.pinEdge x dir = { s with pin := (s.pinEdge x dir).pin, ifs := (s.pinEdge x dir).ifs }

/-- An oscillator failure sets OSCFAIL and CF; at CPU priority 15 with IPL3 set the conflict reset is due, and at its own
level the model faults (60 R227, R245; the fault is the spec's decision D11, log 27). -/
def Obligations.OscFailSetsItsFlags : Prop :=
  ∀ s : State,
    let flagged := { s with intcon1 := s.intcon1 ||| 0x0002#16, cf := true }
    (s.cpuIpl < 14 → s.oscFail = .next flagged) ∧
    (s.cpuIpl = 14 → s.conflictDue = false → s.oscFail = .fault (.unacknowledgeableHardTrap 14)) ∧
    (s.cpuIpl = 15 → s.oscFail = .next { flagged with conflictDue := true })

/-- The sleeping CPU wakes exactly where an implemented source is pending, enabled and of priority 1 or more; where
neither that nor a trap is requested its turn changes nothing (60 R270). -/
def Obligations.WakeUpNeedsAnEnabledSource : Prop :=
  ∀ (s : State) (t : Turn), s.pmode ≠ .run → s.conflictDue = false →
    let wake := ∃ n, implementsSource s.device n = true ∧ s.irqFlag n = true ∧ s.irqEnable n = true ∧
      1 ≤ s.irqPriority n
    (wake → s.cpuTurn t = .next { s with pmode := .run, irqSkid := .woken }) ∧
    (¬wake → (∀ u : Trap, s.trapRequested u = false) → s.cpuTurn t = .next s)

/-! ### Instructions of the CPU core beyond the opcode table -/

/-- An instruction of the CPU core that is one `SFTAC`: a shift value beyond 16 either way sets SFTACERR and MATHERR and
leaves the accumulator (42 R203); otherwise the accumulator takes the result and no flag is set. Nothing else but the pc
changes. That OA, OB and OAB stay in either case is the model's reading (log 36). -/
def Obligations.ShiftBeyondSixteenTraps : Prop :=
  ∀ (s : State) (c k : Nat) (x : Acc) (count : Int) (v : BitVec 40),
    ∃ t, runCore ⟨c, [.sftac x count v], .fallThrough k⟩ s = .next t ∧
      (s.pc.toNat + 2 * k < 0x800000 → t.pc = s.pc + BitVec.ofNat 23 (2 * k)) ∧
      (16 < count ∨ count < -16 → t.intcon1 = s.intcon1 ||| 0x0090#16 ∧ t.accA = s.accA ∧ t.accB = s.accB) ∧
      (-16 ≤ count ∧ count ≤ 16 → t.intcon1 = s.intcon1 ∧
        t.accA = (if x = .a then v else s.accA) ∧ t.accB = (if x = .b then v else s.accB)) ∧
      frame { s with intcon1 := t.intcon1, accA := t.accA, accB := t.accB } t ∧ sameMemory s t

/-- An instruction of the CPU core that is one accumulator result: a carry out of bit 31 without 31-bit saturation is an
overflow, sets OA or OB, and is trapped where OVATE or OVBTE is 1; a carry out of bit 39 without any saturation is
catastrophic and is trapped where COVTE is 1 (42 R200-R202). Where both would be trapped the ordinary cause flag is free
(93 U4). Without a trap the accumulator is the result, and OA or OB is 0 where nothing overflowed; with one they are free
but for an OA or OB that the overflow sets (42 R190, 93 U3, log 2). That OA or OB is set is derived in the spec; that SATA,
SATB and ACCSAT select saturation, and OAB, are its general knowledge (log 36). -/
def Obligations.AccumulatorOverflowTrapsWhenEnabled : Prop :=
  ∀ (s : State) (c k : Nat) (x : Acc) (v : BitVec 40) (carry31 carry39 : Bool),
    let saturates := s.corcon.getLsbD (if x = .a then 7 else 6)
    let enabled := s.intcon1.getLsbD (if x = .a then 10 else 9)
    let ordinary : Word := if x = .a then 0x4010#16 else 0x2010#16
    let catastrophic : Word := if x = .a then 0x1010#16 else 0x0810#16
    let overflows := carry31 = true ∧ ¬(saturates = true ∧ s.corcon.getLsbD 4 = false)
    let trapsCatastrophic := carry39 = true ∧ saturates = false ∧ s.intcon1.getLsbD 8 = true
    let traps := (overflows ∧ enabled = true) ∨ trapsCatastrophic
    ∃ t, runCore ⟨c, [.accResult x v carry31 carry39], .fallThrough k⟩ s = .next t ∧
      (s.pc.toNat + 2 * k < 0x800000 → t.pc = s.pc + BitVec.ofNat 23 (2 * k)) ∧
      (overflows → t.accOverflowed x = true) ∧ (¬traps → ¬overflows → t.accOverflowed x = false) ∧
      (¬traps → (match x with | .a => t.accA | .b => t.accB) = v) ∧
      (match x with | .a => t.accB = s.accB | .b => t.accA = s.accA) ∧
      (∀ b, b ≠ 11 → b ≠ (if x = .a then 15 else 14) → t.sr.getLsbD b = s.sr.getLsbD b) ∧
      t.sr.getLsbD 11 = (t.sr.getLsbD 15 || t.sr.getLsbD 14) ∧
      (¬trapsCatastrophic → t.intcon1 = if overflows ∧ enabled = true then s.intcon1 ||| ordinary else s.intcon1) ∧
      (trapsCatastrophic → enabled = false → t.intcon1 = s.intcon1 ||| catastrophic) ∧
      (trapsCatastrophic → enabled = true →
        t.intcon1 = s.intcon1 ||| catastrophic ∨ t.intcon1 = s.intcon1 ||| catastrophic ||| ordinary) ∧
      frame { s with intcon1 := t.intcon1, sr := t.sr, accA := t.accA, accB := t.accB } t ∧ sameMemory s t

/-- An instruction of the CPU core that is the first iteration of a divide: a zero divisor sets DIV0ERR and MATHERR (42
R204), and the result registers are then free; with another divisor they take the results. W15 is checked once, as the
instruction leaves it (42 R196, 92 D30): where a result register is W15, a value below 0x0800 in it raises the stack error,
the quotient mattering only where the remainder goes elsewhere. After that trap both results are free (42 R190, 93 U3, log
19). Nothing else but the pc changes. -/
def Obligations.DivideByZeroTraps : Prop :=
  ∀ (s : State) (c k : Nat) (divisor q r : Word) (dq dr : BitVec 4),
    let low := (dr = 15#4 ∧ r.toNat < 0x0800) ∨ (dr ≠ 15#4 ∧ dq = 15#4 ∧ q.toNat < 0x0800)
    ∃ t, runCore ⟨c, [.divide divisor q r dq dr], .fallThrough k⟩ s = .next t ∧
      (s.pc.toNat + 2 * k < 0x800000 → t.pc = s.pc + BitVec.ofNat 23 (2 * k)) ∧
      (divisor = 0 → t.intcon1 = s.intcon1 |||
        (if (dq = 15#4 ∨ dr = 15#4) ∧ t.sp.toNat < 0x0800 then 0x0054#16 else 0x0050#16)) ∧
      (divisor ≠ 0 → low → t.intcon1 = s.intcon1 ||| 0x0004#16) ∧
      (divisor ≠ 0 → ¬low → t.intcon1 = s.intcon1 ∧
        t.getW dr = (if dr = 15#4 then r &&& 0xFFFE#16 else r) ∧
        (dq ≠ dr → t.getW dq = if dq = 15#4 then q &&& 0xFFFE#16 else q)) ∧
      (dq = 15#4 ∨ dr = 15#4 → t.sp.getLsbD 0 = false) ∧
      (∀ e, e ≠ dq → e ≠ dr → t.getW e = s.getW e) ∧
      frame { s with w := t.w, intcon1 := t.intcon1 } t ∧ sameMemory s t

/-- A misaligned word read by an instruction of the CPU core, where no higher hard trap stands against it, sets ADDRERR
and suppresses the instruction's data-space writes, those to memory and those to registers (42 R205, R208). -/
def Obligations.MisalignedReadInhibitsTheWrites : Prop :=
  ∀ (s : State) (a f : Word) (v : Word) (d : BitVec 4), a.getLsbD 0 = true → d ≠ 15#4 →
    s.trapFlag .oscillator = false → s.cpuIpl < 13 →
    ∃ t, runCore ⟨1, [.writeWord (.direct f) v, .readWord (.direct a) d], .fallThrough 1⟩ s = .next t ∧
      t.intcon1 = s.intcon1 ||| 0x0008#16 ∧ (∀ e, e ≠ d → t.getW e = s.getW e) ∧
      frame { s with w := t.w, intcon1 := t.intcon1 } t ∧ sameMemory s t

/-! ### The whole machine -/

/-- A step at a running CPU with nothing requested fetches the instruction at the pc, counts its cycles and performs it
(40 R130, 60 R246). That a turn of the schedule carries the stall, and that an empty schedule is a turn with no stall and no
event, are the model's choices (log 1, log 33). -/
def Obligations.StepRunsTheDecodedInstruction : Prop :=
  ∀ (s : State) (i : Instr) (rest : List Word24), s.pmode = .run → s.conflictDue = false → s.ipcStale = none →
    s.arbitrate s.ipc = none → (∀ v l, s.irqSkid ≠ .deferred v l) →
    s.progImpl s.pc.toNat = true → decode s.fetchWords = .ok (i, rest) →
    let ready := fun u : State => { u.atBoundary with irqSkid := .fresh }
    (s.inputs = [] → step s = exec i ((ready (s.drawn 1)).ticks (instrCycles s.device.cycles 0 i))) ∧
    (∀ (t : Turn) (later : List Input), s.inputs = .cpu t :: later → t.oscFail = false →
      step s = exec i ((ready { s with inputs := later }).ticks (instrCycles s.device.cycles t.stall i)))

/-- Every step keeps both memories in canonical form and data RAM to RAM addresses (20 R84). -/
def Obligations.StepKeepsMemoryCanonical : Prop :=
  ∀ s t : State, s.memoryOk → step s = .next t → t.memoryOk

/-- Every step keeps PC<0>, W15<0> and SPLIM<0> at 0 (10 R23, R24; 41 R171 of a written SPLIM). That SPLIM<0> is 0 after
a device reset in a run too, where 10 R64 leaves all 16 bits open, is the model's choice (log 9, log 14). -/
def Obligations.StepKeepsPcAndStackPointerEven : Prop :=
  ∀ s t : State, s.evenOk → step s = .next t → t.evenOk

/-- Every step keeps the unimplemented bits of CORCON, INTCON1, INTCON2 and INTTREG at 0 (10 R28, R31, R40, R62), and OAB
and SAB of SR as the ORs that they are (10 R25, general knowledge of the spec, log 36). -/
def Obligations.StepKeepsReservedBitsZero : Prop :=
  ∀ s t : State, step s = .next t → (s.reservedOk → t.reservedOk) ∧ (s.accStatusOk → t.accStatusOk)

/-- Every step keeps the bits of IFSx, IECx and IPCx that belong to no implemented source at 0 (10 R41, R50). -/
def Obligations.StepKeepsUnimplementedSourceBitsZero : Prop :=
  ∀ s t : State, s.sourcesOk → step s = .next t → t.sourcesOk

/-- Every step keeps DISICNT non-zero while a `DISI` is active (60 R241). -/
def Obligations.StepKeepsTheDisiCount : Prop :=
  ∀ s t : State, s.disiOk → step s = .next t → t.disiOk

/-- No step writes program memory or changes the device (20 R82, R94). -/
def Obligations.StepNeverWritesProgramMemory : Prop :=
  ∀ s t : State, step s = .next t → t.prog = s.prog ∧ t.device = s.device

/-- The state after reset meets every invariant. -/
def Obligations.ResetMeetsTheInvariants : Prop :=
  State.reset.memoryOk ∧ State.reset.evenOk ∧ State.reset.reservedOk ∧ State.reset.accStatusOk ∧
    State.reset.sourcesOk ∧ State.reset.disiOk

/-- After reset: CPU priority 0, nothing pending, nothing enabled, every listed source at priority 4, nesting enabled, the
IVT in use, DISI inactive, no trap flag set, all pins on the positive edge; so nothing is requested (70 R302). The device
that the model starts with (log 3) has the default addresses of 10 R21 (log 4). -/
def Obligations.ResetLeavesNothingRequested : Prop :=
  State.reset.cpuIpl = 0 ∧ (∀ k : Fin 3, regAt State.reset.ifs k = 0 ∧ regAt State.reset.iec k = 0) ∧
    (∀ n ∈ Config.listedSources, State.reset.irqPriority n = 4) ∧ State.reset.nstdis = false ∧
    State.reset.altivt = false ∧ State.reset.disiActive = false ∧ State.reset.disicnt = 0 ∧
    (∀ t ∈ Trap.all, State.reset.trapFlag t = false ∧ State.reset.cpuIpl < t.level) ∧
    (∀ x, State.reset.edgePolarity x = false) ∧
    State.reset.device.addresses = ⟨0x0042, 0x0044, 0x0052, 0x0020, 0x0740, 0x0742⟩ ∧
    State.reset.pc = 0 ∧ State.reset.sp = 0x0800#16 ∧ State.reset.arbitrate State.reset.ipc = none
end

