-- ==== Sys2Proof/Laws/Memory.lean ====
section
/-! SUPPORT. What the memory operations do: reads after writes, and that every write keeps the canonical form. -/

namespace Sys2Proof.Machine

/-! ### The canonical form -/

theorem wfFrom_mono {lo lo' : Nat} (h : lo' ≤ lo) : ∀ {m : List Host.Cell}, wfFrom lo m = true → wfFrom lo' m = true
  | [], _ => rfl
  | (k, v) :: rest, hm => by
    simp only [wfFrom, Bool.and_eq_true, decide_eq_true_eq] at hm ⊢
    exact ⟨⟨by omega, hm.1.2⟩, hm.2⟩

theorem wfFrom_writeByte : ∀ {m : List Host.Cell} {lo : Nat} (a : Nat) (v : Byte),
    wfFrom lo m = true → lo ≤ a → wfFrom lo (writeByte m a v) = true
  | [], lo, a, v, _, ha => by
    unfold writeByte; split <;> simp_all [wfFrom]
  | (k, x) :: rest, lo, a, v, hm, ha => by
    have hm' := hm
    simp only [wfFrom, Bool.and_eq_true, decide_eq_true_eq] at hm'
    obtain ⟨⟨hk, hx⟩, hr⟩ := hm'
    unfold writeByte
    split
    · split
      · exact hm
      · simp [wfFrom, *]
    · split
      · split
        · exact wfFrom_mono (by omega) hr
        · subst_vars; simp [wfFrom, *]
      · simp only [wfFrom, Bool.and_eq_true, decide_eq_true_eq]
        exact ⟨⟨hk, hx⟩, wfFrom_writeByte a v hr (by omega)⟩

/-- A byte write keeps the canonical form. -/
theorem wf_writeByte {m : List Host.Cell} (a : Nat) (v : Byte) (h : Memory.wf m = true) :
    Memory.wf (writeByte m a v) = true := wfFrom_writeByte a v h (Nat.zero_le a)

/-- A word write keeps the canonical form. -/
theorem wf_writeWord {m : List Host.Cell} (a : Nat) (v : Word) (h : Memory.wf m = true) :
    Memory.wf (writeWord m a v) = true := wf_writeByte _ _ (wf_writeByte _ _ h)

/-- Placing a program location keeps the canonical form. -/
theorem wf_writeProg {m : List Host.Cell} (a : Nat) (v : Word24) (h : Memory.wf m = true) :
    Memory.wf (writeProg m a v) = true := wf_writeByte _ _ (wf_writeByte _ _ (wf_writeByte _ _ h))

/-- Every drawn content of the data RAM is in canonical form. -/
theorem wf_ramOf : ∀ m : List Host.Cell, Memory.wf (ramOf m) = true
  | [] => rfl
  | c :: rest => by
    unfold ramOf
    split
    · exact wf_writeByte _ _ (wf_ramOf rest)
    · exact wf_ramOf rest

/-! ### Ranges -/

theorem inRange_cons {lo hi k : Nat} {v : Byte} {m : List Host.Cell} :
    inRange lo hi ((k, v) :: m) = true ↔ (lo ≤ k ∧ k < hi) ∧ inRange lo hi m = true := by
  simp [inRange]

theorem inRange_writeByte {lo hi : Nat} : ∀ {m : List Host.Cell} {a : Nat} (v : Byte),
    inRange lo hi m = true → lo ≤ a → a < hi → inRange lo hi (writeByte m a v) = true
  | [], a, v, _, h1, h2 => by
    unfold writeByte; split <;> simp [inRange, *]
  | (k, x) :: rest, a, v, hm, h1, h2 => by
    obtain ⟨hk, hr⟩ := inRange_cons.1 hm
    have ih := inRange_writeByte (a := a) v hr h1 h2
    unfold writeByte
    split
    · split
      · exact hm
      · exact inRange_cons.2 ⟨⟨h1, h2⟩, hm⟩
    · split
      · split
        · exact hr
        · exact inRange_cons.2 ⟨⟨h1, h2⟩, hr⟩
      · exact inRange_cons.2 ⟨hk, ih⟩

theorem inRange_writeWord {lo hi : Nat} {m : List Host.Cell} {a : Nat} (v : Word)
    (h : inRange lo hi m = true) (h1 : lo ≤ a) (h2 : a + 1 < hi) : inRange lo hi (writeWord m a v) = true :=
  inRange_writeByte _ (inRange_writeByte _ h h1 (by omega)) (by omega) h2

/-- Every drawn content of the data RAM lists RAM addresses only. -/
theorem inRange_ramOf : ∀ m : List Host.Cell, inRange Config.ramBase 0x10000 (ramOf m) = true
  | [] => rfl
  | c :: rest => by
    unfold ramOf
    split
    · rename_i h
      exact inRange_writeByte _ (inRange_ramOf rest) h.1 h.2
    · exact inRange_ramOf rest

/-! ### Reads after writes -/

theorem readByte_of_wfFrom : ∀ {m : List Host.Cell} {lo a : Nat}, wfFrom lo m = true → a < lo →
    readByte m a = unlistedByte
  | [], _, _, _, _ => rfl
  | (k, v) :: rest, lo, a, hm, ha => by
    simp only [wfFrom, Bool.and_eq_true, decide_eq_true_eq] at hm
    unfold readByte
    rw [if_neg (by omega)]
    exact readByte_of_wfFrom hm.2 (by omega)

/-- A byte write leaves every other address alone. -/
theorem readByte_writeByte_of_ne : ∀ {m : List Host.Cell} {a b : Nat} (v : Byte), b ≠ a →
    readByte (writeByte m a v) b = readByte m b
  | [], a, b, v, h => by
    unfold writeByte; split <;> simp [readByte, Ne.symm h]
  | (k, x) :: rest, a, b, v, h => by
    have ih := readByte_writeByte_of_ne (m := rest) v h
    unfold writeByte
    split
    · split <;> simp [readByte, Ne.symm h]
    · split
      · split <;> (subst_vars; simp [readByte, Ne.symm h])
      · simp only [readByte, ih]

theorem readByte_writeByte_self_from : ∀ {m : List Host.Cell} {lo : Nat} (a : Nat) (v : Byte),
    wfFrom lo m = true → readByte (writeByte m a v) a = v
  | [], _, a, v, _ => by
    unfold writeByte; split <;> simp_all [readByte]
  | (k, x) :: rest, lo, a, v, hm => by
    simp only [wfFrom, Bool.and_eq_true, decide_eq_true_eq] at hm
    have ih := readByte_writeByte_self_from a v hm.2
    unfold writeByte
    split
    · split
      · subst_vars
        rw [readByte, if_neg (by omega)]
        exact readByte_of_wfFrom hm.2 (by omega)
      · simp [readByte]
    · split
      · split
        · subst_vars
          exact readByte_of_wfFrom hm.2 (by omega)
        · simp [readByte]
      · rw [readByte, if_neg (by omega)]
        exact ih

/-- A byte write gives its address the value written. -/
theorem readByte_writeByte_self {m : List Host.Cell} (a : Nat) (v : Byte) (h : Memory.wf m = true) :
    readByte (writeByte m a v) a = v := readByte_writeByte_self_from a v h

/-- A word write leaves every byte outside its two alone. -/
theorem readByte_writeWord_of_ne {m : List Host.Cell} {a b : Nat} (v : Word) (h0 : b ≠ a) (h1 : b ≠ a + 1) :
    readByte (writeWord m a v) b = readByte m b := by
  unfold writeWord
  rw [readByte_writeByte_of_ne _ h1, readByte_writeByte_of_ne _ h0]

/-- A word write is read back. -/
theorem readWord_writeWord_self {m : List Host.Cell} (a : Nat) (v : Word) (h : Memory.wf m = true) :
    readWord (writeWord m a v) a = v := by
  unfold readWord writeWord
  rw [readByte_writeByte_self _ _ (wf_writeByte _ _ h), readByte_writeByte_of_ne _ (by omega),
    readByte_writeByte_self _ _ h]
  exact BitVec.eq_of_getLsbD_eq fun i hi => by
    rw [BitVec.getLsbD_append]
    by_cases h8 : i < 8
    · simp [h8]
    · have h8' : i - 8 < 8 := by omega
      have e : 8 + (i - 8) = i := by omega
      simp [h8, h8', e]

/-- A word write leaves a word that does not overlap it alone. -/
theorem readWord_writeWord_of_ne {m : List Host.Cell} {a b : Nat} (v : Word) (h : b + 1 < a ∨ a + 1 < b) :
    readWord (writeWord m a v) b = readWord m b := by
  unfold readWord
  rw [readByte_writeWord_of_ne _ (by omega) (by omega), readByte_writeWord_of_ne _ (by omega) (by omega)]

end Sys2Proof.Machine
end

