-- ==== Sys2Proof/Laws/State.lean ====
section
/-! SUPPORT. One lemma for each field of the state and each named update: what the update leaves in the field. -/

namespace Sys2Proof.Machine

variable (s : State)

/-! ### `State.withIpl` -/

@[simp] theorem State.withIpl_pc (l : BitVec 3) : (s.withIpl l).pc = s.pc := rfl
@[simp] theorem State.withIpl_w (l : BitVec 3) : (s.withIpl l).w = s.w := rfl
@[simp] theorem State.withIpl_sr (l : BitVec 3) : (s.withIpl l).sr = merge s.sr (l.setWidth 16 <<< 5) 0x00E0#16 := rfl
@[simp] theorem State.withIpl_corcon (l : BitVec 3) : (s.withIpl l).corcon = s.corcon := rfl
@[simp] theorem State.withIpl_intcon1 (l : BitVec 3) : (s.withIpl l).intcon1 = s.intcon1 := rfl
@[simp] theorem State.withIpl_intcon2 (l : BitVec 3) : (s.withIpl l).intcon2 = s.intcon2 := rfl
@[simp] theorem State.withIpl_ifs (l : BitVec 3) : (s.withIpl l).ifs = s.ifs := rfl
@[simp] theorem State.withIpl_iec (l : BitVec 3) : (s.withIpl l).iec = s.iec := rfl
@[simp] theorem State.withIpl_ipc (l : BitVec 3) : (s.withIpl l).ipc = s.ipc := rfl
@[simp] theorem State.withIpl_inttreg (l : BitVec 3) : (s.withIpl l).inttreg = s.inttreg := rfl
@[simp] theorem State.withIpl_disicnt (l : BitVec 3) : (s.withIpl l).disicnt = s.disicnt := rfl
@[simp] theorem State.withIpl_splim (l : BitVec 3) : (s.withIpl l).splim = s.splim := rfl
@[simp] theorem State.withIpl_trapr (l : BitVec 3) : (s.withIpl l).trapr = s.trapr := rfl
@[simp] theorem State.withIpl_cf (l : BitVec 3) : (s.withIpl l).cf = s.cf := rfl
@[simp] theorem State.withIpl_accA (l : BitVec 3) : (s.withIpl l).accA = s.accA := rfl
@[simp] theorem State.withIpl_accB (l : BitVec 3) : (s.withIpl l).accB = s.accB := rfl
@[simp] theorem State.withIpl_splimArmed (l : BitVec 3) : (s.withIpl l).splimArmed = s.splimArmed := rfl
@[simp] theorem State.withIpl_pmode (l : BitVec 3) : (s.withIpl l).pmode = s.pmode := rfl
@[simp] theorem State.withIpl_pin (l : BitVec 3) : (s.withIpl l).pin = s.pin := rfl
@[simp] theorem State.withIpl_tempPc (l : BitVec 3) : (s.withIpl l).tempPc = s.tempPc := rfl
@[simp] theorem State.withIpl_tempSrl (l : BitVec 3) : (s.withIpl l).tempSrl = s.tempSrl := rfl
@[simp] theorem State.withIpl_irqSkid (l : BitVec 3) : (s.withIpl l).irqSkid = s.irqSkid := rfl
@[simp] theorem State.withIpl_stkAge (l : BitVec 3) : (s.withIpl l).stkAge = s.stkAge := rfl
@[simp] theorem State.withIpl_mathAge (l : BitVec 3) : (s.withIpl l).mathAge = s.mathAge := rfl
@[simp] theorem State.withIpl_data (l : BitVec 3) : (s.withIpl l).data = s.data := rfl
@[simp] theorem State.withIpl_prog (l : BitVec 3) : (s.withIpl l).prog = s.prog := rfl
@[simp] theorem State.withIpl_inttregHold (l : BitVec 3) : (s.withIpl l).inttregHold = s.inttregHold := rfl
@[simp] theorem State.withIpl_ipcStale (l : BitVec 3) : (s.withIpl l).ipcStale = s.ipcStale := rfl
@[simp] theorem State.withIpl_conflictDue (l : BitVec 3) : (s.withIpl l).conflictDue = s.conflictDue := rfl
@[simp] theorem State.withIpl_inputs (l : BitVec 3) : (s.withIpl l).inputs = s.inputs := rfl
@[simp] theorem State.withIpl_draws (l : BitVec 3) : (s.withIpl l).draws = s.draws := rfl
@[simp] theorem State.withIpl_device (l : BitVec 3) : (s.withIpl l).device = s.device := rfl

/-! ### `State.withIpl3` -/

@[simp] theorem State.withIpl3_pc (b : Bool) : (s.withIpl3 b).pc = s.pc := rfl
@[simp] theorem State.withIpl3_w (b : Bool) : (s.withIpl3 b).w = s.w := rfl
@[simp] theorem State.withIpl3_sr (b : Bool) : (s.withIpl3 b).sr = s.sr := rfl
@[simp] theorem State.withIpl3_corcon (b : Bool) : (s.withIpl3 b).corcon = setBitTo s.corcon 3 b := rfl
@[simp] theorem State.withIpl3_intcon1 (b : Bool) : (s.withIpl3 b).intcon1 = s.intcon1 := rfl
@[simp] theorem State.withIpl3_intcon2 (b : Bool) : (s.withIpl3 b).intcon2 = s.intcon2 := rfl
@[simp] theorem State.withIpl3_ifs (b : Bool) : (s.withIpl3 b).ifs = s.ifs := rfl
@[simp] theorem State.withIpl3_iec (b : Bool) : (s.withIpl3 b).iec = s.iec := rfl
@[simp] theorem State.withIpl3_ipc (b : Bool) : (s.withIpl3 b).ipc = s.ipc := rfl
@[simp] theorem State.withIpl3_inttreg (b : Bool) : (s.withIpl3 b).inttreg = s.inttreg := rfl
@[simp] theorem State.withIpl3_disicnt (b : Bool) : (s.withIpl3 b).disicnt = s.disicnt := rfl
@[simp] theorem State.withIpl3_splim (b : Bool) : (s.withIpl3 b).splim = s.splim := rfl
@[simp] theorem State.withIpl3_trapr (b : Bool) : (s.withIpl3 b).trapr = s.trapr := rfl
@[simp] theorem State.withIpl3_cf (b : Bool) : (s.withIpl3 b).cf = s.cf := rfl
@[simp] theorem State.withIpl3_accA (b : Bool) : (s.withIpl3 b).accA = s.accA := rfl
@[simp] theorem State.withIpl3_accB (b : Bool) : (s.withIpl3 b).accB = s.accB := rfl
@[simp] theorem State.withIpl3_splimArmed (b : Bool) : (s.withIpl3 b).splimArmed = s.splimArmed := rfl
@[simp] theorem State.withIpl3_pmode (b : Bool) : (s.withIpl3 b).pmode = s.pmode := rfl
@[simp] theorem State.withIpl3_pin (b : Bool) : (s.withIpl3 b).pin = s.pin := rfl
@[simp] theorem State.withIpl3_tempPc (b : Bool) : (s.withIpl3 b).tempPc = s.tempPc := rfl
@[simp] theorem State.withIpl3_tempSrl (b : Bool) : (s.withIpl3 b).tempSrl = s.tempSrl := rfl
@[simp] theorem State.withIpl3_irqSkid (b : Bool) : (s.withIpl3 b).irqSkid = s.irqSkid := rfl
@[simp] theorem State.withIpl3_stkAge (b : Bool) : (s.withIpl3 b).stkAge = s.stkAge := rfl
@[simp] theorem State.withIpl3_mathAge (b : Bool) : (s.withIpl3 b).mathAge = s.mathAge := rfl
@[simp] theorem State.withIpl3_data (b : Bool) : (s.withIpl3 b).data = s.data := rfl
@[simp] theorem State.withIpl3_prog (b : Bool) : (s.withIpl3 b).prog = s.prog := rfl
@[simp] theorem State.withIpl3_inttregHold (b : Bool) : (s.withIpl3 b).inttregHold = s.inttregHold := rfl
@[simp] theorem State.withIpl3_ipcStale (b : Bool) : (s.withIpl3 b).ipcStale = s.ipcStale := rfl
@[simp] theorem State.withIpl3_conflictDue (b : Bool) : (s.withIpl3 b).conflictDue = s.conflictDue := rfl
@[simp] theorem State.withIpl3_inputs (b : Bool) : (s.withIpl3 b).inputs = s.inputs := rfl
@[simp] theorem State.withIpl3_draws (b : Bool) : (s.withIpl3 b).draws = s.draws := rfl
@[simp] theorem State.withIpl3_device (b : Bool) : (s.withIpl3 b).device = s.device := rfl

/-! ### `State.withSrl` -/

@[simp] theorem State.withSrl_pc (b : Byte) : (s.withSrl b).pc = s.pc := rfl
@[simp] theorem State.withSrl_w (b : Byte) : (s.withSrl b).w = s.w := rfl
@[simp] theorem State.withSrl_sr (b : Byte) : (s.withSrl b).sr = s.sr.extractLsb' 8 8 ++ b := rfl
@[simp] theorem State.withSrl_corcon (b : Byte) : (s.withSrl b).corcon = s.corcon := rfl
@[simp] theorem State.withSrl_intcon1 (b : Byte) : (s.withSrl b).intcon1 = s.intcon1 := rfl
@[simp] theorem State.withSrl_intcon2 (b : Byte) : (s.withSrl b).intcon2 = s.intcon2 := rfl
@[simp] theorem State.withSrl_ifs (b : Byte) : (s.withSrl b).ifs = s.ifs := rfl
@[simp] theorem State.withSrl_iec (b : Byte) : (s.withSrl b).iec = s.iec := rfl
@[simp] theorem State.withSrl_ipc (b : Byte) : (s.withSrl b).ipc = s.ipc := rfl
@[simp] theorem State.withSrl_inttreg (b : Byte) : (s.withSrl b).inttreg = s.inttreg := rfl
@[simp] theorem State.withSrl_disicnt (b : Byte) : (s.withSrl b).disicnt = s.disicnt := rfl
@[simp] theorem State.withSrl_splim (b : Byte) : (s.withSrl b).splim = s.splim := rfl
@[simp] theorem State.withSrl_trapr (b : Byte) : (s.withSrl b).trapr = s.trapr := rfl
@[simp] theorem State.withSrl_cf (b : Byte) : (s.withSrl b).cf = s.cf := rfl
@[simp] theorem State.withSrl_accA (b : Byte) : (s.withSrl b).accA = s.accA := rfl
@[simp] theorem State.withSrl_accB (b : Byte) : (s.withSrl b).accB = s.accB := rfl
@[simp] theorem State.withSrl_splimArmed (b : Byte) : (s.withSrl b).splimArmed = s.splimArmed := rfl
@[simp] theorem State.withSrl_pmode (b : Byte) : (s.withSrl b).pmode = s.pmode := rfl
@[simp] theorem State.withSrl_pin (b : Byte) : (s.withSrl b).pin = s.pin := rfl
@[simp] theorem State.withSrl_tempPc (b : Byte) : (s.withSrl b).tempPc = s.tempPc := rfl
@[simp] theorem State.withSrl_tempSrl (b : Byte) : (s.withSrl b).tempSrl = s.tempSrl := rfl
@[simp] theorem State.withSrl_irqSkid (b : Byte) : (s.withSrl b).irqSkid = s.irqSkid := rfl
@[simp] theorem State.withSrl_stkAge (b : Byte) : (s.withSrl b).stkAge = s.stkAge := rfl
@[simp] theorem State.withSrl_mathAge (b : Byte) : (s.withSrl b).mathAge = s.mathAge := rfl
@[simp] theorem State.withSrl_data (b : Byte) : (s.withSrl b).data = s.data := rfl
@[simp] theorem State.withSrl_prog (b : Byte) : (s.withSrl b).prog = s.prog := rfl
@[simp] theorem State.withSrl_inttregHold (b : Byte) : (s.withSrl b).inttregHold = s.inttregHold := rfl
@[simp] theorem State.withSrl_ipcStale (b : Byte) : (s.withSrl b).ipcStale = s.ipcStale := rfl
@[simp] theorem State.withSrl_conflictDue (b : Byte) : (s.withSrl b).conflictDue = s.conflictDue := rfl
@[simp] theorem State.withSrl_inputs (b : Byte) : (s.withSrl b).inputs = s.inputs := rfl
@[simp] theorem State.withSrl_draws (b : Byte) : (s.withSrl b).draws = s.draws := rfl
@[simp] theorem State.withSrl_device (b : Byte) : (s.withSrl b).device = s.device := rfl

/-! ### `State.withDisi` -/

@[simp] theorem State.withDisi_pc (b : Bool) : (s.withDisi b).pc = s.pc := rfl
@[simp] theorem State.withDisi_w (b : Bool) : (s.withDisi b).w = s.w := rfl
@[simp] theorem State.withDisi_sr (b : Bool) : (s.withDisi b).sr = s.sr := rfl
@[simp] theorem State.withDisi_corcon (b : Bool) : (s.withDisi b).corcon = s.corcon := rfl
@[simp] theorem State.withDisi_intcon1 (b : Bool) : (s.withDisi b).intcon1 = s.intcon1 := rfl
@[simp] theorem State.withDisi_intcon2 (b : Bool) : (s.withDisi b).intcon2 = setBitTo s.intcon2 14 b := rfl
@[simp] theorem State.withDisi_ifs (b : Bool) : (s.withDisi b).ifs = s.ifs := rfl
@[simp] theorem State.withDisi_iec (b : Bool) : (s.withDisi b).iec = s.iec := rfl
@[simp] theorem State.withDisi_ipc (b : Bool) : (s.withDisi b).ipc = s.ipc := rfl
@[simp] theorem State.withDisi_inttreg (b : Bool) : (s.withDisi b).inttreg = s.inttreg := rfl
@[simp] theorem State.withDisi_disicnt (b : Bool) : (s.withDisi b).disicnt = s.disicnt := rfl
@[simp] theorem State.withDisi_splim (b : Bool) : (s.withDisi b).splim = s.splim := rfl
@[simp] theorem State.withDisi_trapr (b : Bool) : (s.withDisi b).trapr = s.trapr := rfl
@[simp] theorem State.withDisi_cf (b : Bool) : (s.withDisi b).cf = s.cf := rfl
@[simp] theorem State.withDisi_accA (b : Bool) : (s.withDisi b).accA = s.accA := rfl
@[simp] theorem State.withDisi_accB (b : Bool) : (s.withDisi b).accB = s.accB := rfl
@[simp] theorem State.withDisi_splimArmed (b : Bool) : (s.withDisi b).splimArmed = s.splimArmed := rfl
@[simp] theorem State.withDisi_pmode (b : Bool) : (s.withDisi b).pmode = s.pmode := rfl
@[simp] theorem State.withDisi_pin (b : Bool) : (s.withDisi b).pin = s.pin := rfl
@[simp] theorem State.withDisi_tempPc (b : Bool) : (s.withDisi b).tempPc = s.tempPc := rfl
@[simp] theorem State.withDisi_tempSrl (b : Bool) : (s.withDisi b).tempSrl = s.tempSrl := rfl
@[simp] theorem State.withDisi_irqSkid (b : Bool) : (s.withDisi b).irqSkid = s.irqSkid := rfl
@[simp] theorem State.withDisi_stkAge (b : Bool) : (s.withDisi b).stkAge = s.stkAge := rfl
@[simp] theorem State.withDisi_mathAge (b : Bool) : (s.withDisi b).mathAge = s.mathAge := rfl
@[simp] theorem State.withDisi_data (b : Bool) : (s.withDisi b).data = s.data := rfl
@[simp] theorem State.withDisi_prog (b : Bool) : (s.withDisi b).prog = s.prog := rfl
@[simp] theorem State.withDisi_inttregHold (b : Bool) : (s.withDisi b).inttregHold = s.inttregHold := rfl
@[simp] theorem State.withDisi_ipcStale (b : Bool) : (s.withDisi b).ipcStale = s.ipcStale := rfl
@[simp] theorem State.withDisi_conflictDue (b : Bool) : (s.withDisi b).conflictDue = s.conflictDue := rfl
@[simp] theorem State.withDisi_inputs (b : Bool) : (s.withDisi b).inputs = s.inputs := rfl
@[simp] theorem State.withDisi_draws (b : Bool) : (s.withDisi b).draws = s.draws := rfl
@[simp] theorem State.withDisi_device (b : Bool) : (s.withDisi b).device = s.device := rfl

/-! ### `State.setIntcon1` -/

@[simp] theorem State.setIntcon1_pc (i : Nat) : (s.setIntcon1 i).pc = s.pc := rfl
@[simp] theorem State.setIntcon1_w (i : Nat) : (s.setIntcon1 i).w = s.w := rfl
@[simp] theorem State.setIntcon1_sr (i : Nat) : (s.setIntcon1 i).sr = s.sr := rfl
@[simp] theorem State.setIntcon1_corcon (i : Nat) : (s.setIntcon1 i).corcon = s.corcon := rfl
@[simp] theorem State.setIntcon1_intcon1 (i : Nat) : (s.setIntcon1 i).intcon1 = setBitTo s.intcon1 i true := rfl
@[simp] theorem State.setIntcon1_intcon2 (i : Nat) : (s.setIntcon1 i).intcon2 = s.intcon2 := rfl
@[simp] theorem State.setIntcon1_ifs (i : Nat) : (s.setIntcon1 i).ifs = s.ifs := rfl
@[simp] theorem State.setIntcon1_iec (i : Nat) : (s.setIntcon1 i).iec = s.iec := rfl
@[simp] theorem State.setIntcon1_ipc (i : Nat) : (s.setIntcon1 i).ipc = s.ipc := rfl
@[simp] theorem State.setIntcon1_inttreg (i : Nat) : (s.setIntcon1 i).inttreg = s.inttreg := rfl
@[simp] theorem State.setIntcon1_disicnt (i : Nat) : (s.setIntcon1 i).disicnt = s.disicnt := rfl
@[simp] theorem State.setIntcon1_splim (i : Nat) : (s.setIntcon1 i).splim = s.splim := rfl
@[simp] theorem State.setIntcon1_trapr (i : Nat) : (s.setIntcon1 i).trapr = s.trapr := rfl
@[simp] theorem State.setIntcon1_cf (i : Nat) : (s.setIntcon1 i).cf = s.cf := rfl
@[simp] theorem State.setIntcon1_accA (i : Nat) : (s.setIntcon1 i).accA = s.accA := rfl
@[simp] theorem State.setIntcon1_accB (i : Nat) : (s.setIntcon1 i).accB = s.accB := rfl
@[simp] theorem State.setIntcon1_splimArmed (i : Nat) : (s.setIntcon1 i).splimArmed = s.splimArmed := rfl
@[simp] theorem State.setIntcon1_pmode (i : Nat) : (s.setIntcon1 i).pmode = s.pmode := rfl
@[simp] theorem State.setIntcon1_pin (i : Nat) : (s.setIntcon1 i).pin = s.pin := rfl
@[simp] theorem State.setIntcon1_tempPc (i : Nat) : (s.setIntcon1 i).tempPc = s.tempPc := rfl
@[simp] theorem State.setIntcon1_tempSrl (i : Nat) : (s.setIntcon1 i).tempSrl = s.tempSrl := rfl
@[simp] theorem State.setIntcon1_irqSkid (i : Nat) : (s.setIntcon1 i).irqSkid = s.irqSkid := rfl
@[simp] theorem State.setIntcon1_stkAge (i : Nat) : (s.setIntcon1 i).stkAge = s.stkAge := rfl
@[simp] theorem State.setIntcon1_mathAge (i : Nat) : (s.setIntcon1 i).mathAge = s.mathAge := rfl
@[simp] theorem State.setIntcon1_data (i : Nat) : (s.setIntcon1 i).data = s.data := rfl
@[simp] theorem State.setIntcon1_prog (i : Nat) : (s.setIntcon1 i).prog = s.prog := rfl
@[simp] theorem State.setIntcon1_inttregHold (i : Nat) : (s.setIntcon1 i).inttregHold = s.inttregHold := rfl
@[simp] theorem State.setIntcon1_ipcStale (i : Nat) : (s.setIntcon1 i).ipcStale = s.ipcStale := rfl
@[simp] theorem State.setIntcon1_conflictDue (i : Nat) : (s.setIntcon1 i).conflictDue = s.conflictDue := rfl
@[simp] theorem State.setIntcon1_inputs (i : Nat) : (s.setIntcon1 i).inputs = s.inputs := rfl
@[simp] theorem State.setIntcon1_draws (i : Nat) : (s.setIntcon1 i).draws = s.draws := rfl
@[simp] theorem State.setIntcon1_device (i : Nat) : (s.setIntcon1 i).device = s.device := rfl

/-! ### `State.flagTrap` -/

@[simp] theorem State.flagTrap_pc (t : Trap) : (s.flagTrap t).pc = s.pc := rfl
@[simp] theorem State.flagTrap_w (t : Trap) : (s.flagTrap t).w = s.w := rfl
@[simp] theorem State.flagTrap_sr (t : Trap) : (s.flagTrap t).sr = s.sr := rfl
@[simp] theorem State.flagTrap_corcon (t : Trap) : (s.flagTrap t).corcon = s.corcon := rfl
@[simp] theorem State.flagTrap_intcon1 (t : Trap) : (s.flagTrap t).intcon1 = setBitTo s.intcon1 t.flagBit true := rfl
@[simp] theorem State.flagTrap_intcon2 (t : Trap) : (s.flagTrap t).intcon2 = s.intcon2 := rfl
@[simp] theorem State.flagTrap_ifs (t : Trap) : (s.flagTrap t).ifs = s.ifs := rfl
@[simp] theorem State.flagTrap_iec (t : Trap) : (s.flagTrap t).iec = s.iec := rfl
@[simp] theorem State.flagTrap_ipc (t : Trap) : (s.flagTrap t).ipc = s.ipc := rfl
@[simp] theorem State.flagTrap_inttreg (t : Trap) : (s.flagTrap t).inttreg = s.inttreg := rfl
@[simp] theorem State.flagTrap_disicnt (t : Trap) : (s.flagTrap t).disicnt = s.disicnt := rfl
@[simp] theorem State.flagTrap_splim (t : Trap) : (s.flagTrap t).splim = s.splim := rfl
@[simp] theorem State.flagTrap_trapr (t : Trap) : (s.flagTrap t).trapr = s.trapr := rfl
@[simp] theorem State.flagTrap_cf (t : Trap) : (s.flagTrap t).cf = s.cf := rfl
@[simp] theorem State.flagTrap_accA (t : Trap) : (s.flagTrap t).accA = s.accA := rfl
@[simp] theorem State.flagTrap_accB (t : Trap) : (s.flagTrap t).accB = s.accB := rfl
@[simp] theorem State.flagTrap_splimArmed (t : Trap) : (s.flagTrap t).splimArmed = s.splimArmed := rfl
@[simp] theorem State.flagTrap_pmode (t : Trap) : (s.flagTrap t).pmode = s.pmode := rfl
@[simp] theorem State.flagTrap_pin (t : Trap) : (s.flagTrap t).pin = s.pin := rfl
@[simp] theorem State.flagTrap_tempPc (t : Trap) : (s.flagTrap t).tempPc = s.tempPc := rfl
@[simp] theorem State.flagTrap_tempSrl (t : Trap) : (s.flagTrap t).tempSrl = s.tempSrl := rfl
@[simp] theorem State.flagTrap_irqSkid (t : Trap) : (s.flagTrap t).irqSkid = s.irqSkid := rfl
@[simp] theorem State.flagTrap_stkAge (t : Trap) : (s.flagTrap t).stkAge = s.stkAge := rfl
@[simp] theorem State.flagTrap_mathAge (t : Trap) : (s.flagTrap t).mathAge = s.mathAge := rfl
@[simp] theorem State.flagTrap_data (t : Trap) : (s.flagTrap t).data = s.data := rfl
@[simp] theorem State.flagTrap_prog (t : Trap) : (s.flagTrap t).prog = s.prog := rfl
@[simp] theorem State.flagTrap_inttregHold (t : Trap) : (s.flagTrap t).inttregHold = s.inttregHold := rfl
@[simp] theorem State.flagTrap_ipcStale (t : Trap) : (s.flagTrap t).ipcStale = s.ipcStale := rfl
@[simp] theorem State.flagTrap_conflictDue (t : Trap) : (s.flagTrap t).conflictDue = s.conflictDue := rfl
@[simp] theorem State.flagTrap_inputs (t : Trap) : (s.flagTrap t).inputs = s.inputs := rfl
@[simp] theorem State.flagTrap_draws (t : Trap) : (s.flagTrap t).draws = s.draws := rfl
@[simp] theorem State.flagTrap_device (t : Trap) : (s.flagTrap t).device = s.device := rfl

/-! ### `State.raiseStackError` -/

@[simp] theorem State.raiseStackError_pc : (s.raiseStackError).pc = s.pc := rfl
@[simp] theorem State.raiseStackError_w : (s.raiseStackError).w = s.w := rfl
@[simp] theorem State.raiseStackError_sr : (s.raiseStackError).sr = s.sr := rfl
@[simp] theorem State.raiseStackError_corcon : (s.raiseStackError).corcon = s.corcon := rfl
@[simp] theorem State.raiseStackError_intcon1 : (s.raiseStackError).intcon1 = setBitTo s.intcon1 2 true := rfl
@[simp] theorem State.raiseStackError_intcon2 : (s.raiseStackError).intcon2 = s.intcon2 := rfl
@[simp] theorem State.raiseStackError_ifs : (s.raiseStackError).ifs = s.ifs := rfl
@[simp] theorem State.raiseStackError_iec : (s.raiseStackError).iec = s.iec := rfl
@[simp] theorem State.raiseStackError_ipc : (s.raiseStackError).ipc = s.ipc := rfl
@[simp] theorem State.raiseStackError_inttreg : (s.raiseStackError).inttreg = s.inttreg := rfl
@[simp] theorem State.raiseStackError_disicnt : (s.raiseStackError).disicnt = s.disicnt := rfl
@[simp] theorem State.raiseStackError_splim : (s.raiseStackError).splim = s.splim := rfl
@[simp] theorem State.raiseStackError_trapr : (s.raiseStackError).trapr = s.trapr := rfl
@[simp] theorem State.raiseStackError_cf : (s.raiseStackError).cf = s.cf := rfl
@[simp] theorem State.raiseStackError_accA : (s.raiseStackError).accA = s.accA := rfl
@[simp] theorem State.raiseStackError_accB : (s.raiseStackError).accB = s.accB := rfl
@[simp] theorem State.raiseStackError_splimArmed : (s.raiseStackError).splimArmed = s.splimArmed := rfl
@[simp] theorem State.raiseStackError_pmode : (s.raiseStackError).pmode = s.pmode := rfl
@[simp] theorem State.raiseStackError_pin : (s.raiseStackError).pin = s.pin := rfl
@[simp] theorem State.raiseStackError_tempPc : (s.raiseStackError).tempPc = s.tempPc := rfl
@[simp] theorem State.raiseStackError_tempSrl : (s.raiseStackError).tempSrl = s.tempSrl := rfl
@[simp] theorem State.raiseStackError_irqSkid : (s.raiseStackError).irqSkid = s.irqSkid := rfl
@[simp] theorem State.raiseStackError_stkAge : (s.raiseStackError).stkAge = s.stkAge := rfl
@[simp] theorem State.raiseStackError_mathAge : (s.raiseStackError).mathAge = s.mathAge := rfl
@[simp] theorem State.raiseStackError_data : (s.raiseStackError).data = s.data := rfl
@[simp] theorem State.raiseStackError_prog : (s.raiseStackError).prog = s.prog := rfl
@[simp] theorem State.raiseStackError_inttregHold : (s.raiseStackError).inttregHold = s.inttregHold := rfl
@[simp] theorem State.raiseStackError_ipcStale : (s.raiseStackError).ipcStale = s.ipcStale := rfl
@[simp] theorem State.raiseStackError_conflictDue : (s.raiseStackError).conflictDue = s.conflictDue := rfl
@[simp] theorem State.raiseStackError_inputs : (s.raiseStackError).inputs = s.inputs := rfl
@[simp] theorem State.raiseStackError_draws : (s.raiseStackError).draws = s.draws := rfl
@[simp] theorem State.raiseStackError_device : (s.raiseStackError).device = s.device := rfl

/-! ### `State.raiseMathError` -/

@[simp] theorem State.raiseMathError_pc (i : Nat) : (s.raiseMathError i).pc = s.pc := rfl
@[simp] theorem State.raiseMathError_w (i : Nat) : (s.raiseMathError i).w = s.w := rfl
@[simp] theorem State.raiseMathError_sr (i : Nat) : (s.raiseMathError i).sr = s.sr := rfl
@[simp] theorem State.raiseMathError_corcon (i : Nat) : (s.raiseMathError i).corcon = s.corcon := rfl
@[simp] theorem State.raiseMathError_intcon1 (i : Nat) :
    (s.raiseMathError i).intcon1 = setBitTo (setBitTo s.intcon1 i true) 4 true := rfl
@[simp] theorem State.raiseMathError_intcon2 (i : Nat) : (s.raiseMathError i).intcon2 = s.intcon2 := rfl
@[simp] theorem State.raiseMathError_ifs (i : Nat) : (s.raiseMathError i).ifs = s.ifs := rfl
@[simp] theorem State.raiseMathError_iec (i : Nat) : (s.raiseMathError i).iec = s.iec := rfl
@[simp] theorem State.raiseMathError_ipc (i : Nat) : (s.raiseMathError i).ipc = s.ipc := rfl
@[simp] theorem State.raiseMathError_inttreg (i : Nat) : (s.raiseMathError i).inttreg = s.inttreg := rfl
@[simp] theorem State.raiseMathError_disicnt (i : Nat) : (s.raiseMathError i).disicnt = s.disicnt := rfl
@[simp] theorem State.raiseMathError_splim (i : Nat) : (s.raiseMathError i).splim = s.splim := rfl
@[simp] theorem State.raiseMathError_trapr (i : Nat) : (s.raiseMathError i).trapr = s.trapr := rfl
@[simp] theorem State.raiseMathError_cf (i : Nat) : (s.raiseMathError i).cf = s.cf := rfl
@[simp] theorem State.raiseMathError_accA (i : Nat) : (s.raiseMathError i).accA = s.accA := rfl
@[simp] theorem State.raiseMathError_accB (i : Nat) : (s.raiseMathError i).accB = s.accB := rfl
@[simp] theorem State.raiseMathError_splimArmed (i : Nat) : (s.raiseMathError i).splimArmed = s.splimArmed := rfl
@[simp] theorem State.raiseMathError_pmode (i : Nat) : (s.raiseMathError i).pmode = s.pmode := rfl
@[simp] theorem State.raiseMathError_pin (i : Nat) : (s.raiseMathError i).pin = s.pin := rfl
@[simp] theorem State.raiseMathError_tempPc (i : Nat) : (s.raiseMathError i).tempPc = s.tempPc := rfl
@[simp] theorem State.raiseMathError_tempSrl (i : Nat) : (s.raiseMathError i).tempSrl = s.tempSrl := rfl
@[simp] theorem State.raiseMathError_irqSkid (i : Nat) : (s.raiseMathError i).irqSkid = s.irqSkid := rfl
@[simp] theorem State.raiseMathError_stkAge (i : Nat) : (s.raiseMathError i).stkAge = s.stkAge := rfl
@[simp] theorem State.raiseMathError_mathAge (i : Nat) : (s.raiseMathError i).mathAge = s.mathAge := rfl
@[simp] theorem State.raiseMathError_data (i : Nat) : (s.raiseMathError i).data = s.data := rfl
@[simp] theorem State.raiseMathError_prog (i : Nat) : (s.raiseMathError i).prog = s.prog := rfl
@[simp] theorem State.raiseMathError_inttregHold (i : Nat) : (s.raiseMathError i).inttregHold = s.inttregHold := rfl
@[simp] theorem State.raiseMathError_ipcStale (i : Nat) : (s.raiseMathError i).ipcStale = s.ipcStale := rfl
@[simp] theorem State.raiseMathError_conflictDue (i : Nat) : (s.raiseMathError i).conflictDue = s.conflictDue := rfl
@[simp] theorem State.raiseMathError_inputs (i : Nat) : (s.raiseMathError i).inputs = s.inputs := rfl
@[simp] theorem State.raiseMathError_draws (i : Nat) : (s.raiseMathError i).draws = s.draws := rfl
@[simp] theorem State.raiseMathError_device (i : Nat) : (s.raiseMathError i).device = s.device := rfl

/-! ### `State.flagOscFail` -/

@[simp] theorem State.flagOscFail_pc : (s.flagOscFail).pc = s.pc := rfl
@[simp] theorem State.flagOscFail_w : (s.flagOscFail).w = s.w := rfl
@[simp] theorem State.flagOscFail_sr : (s.flagOscFail).sr = s.sr := rfl
@[simp] theorem State.flagOscFail_corcon : (s.flagOscFail).corcon = s.corcon := rfl
@[simp] theorem State.flagOscFail_intcon1 : (s.flagOscFail).intcon1 = setBitTo s.intcon1 1 true := rfl
@[simp] theorem State.flagOscFail_intcon2 : (s.flagOscFail).intcon2 = s.intcon2 := rfl
@[simp] theorem State.flagOscFail_ifs : (s.flagOscFail).ifs = s.ifs := rfl
@[simp] theorem State.flagOscFail_iec : (s.flagOscFail).iec = s.iec := rfl
@[simp] theorem State.flagOscFail_ipc : (s.flagOscFail).ipc = s.ipc := rfl
@[simp] theorem State.flagOscFail_inttreg : (s.flagOscFail).inttreg = s.inttreg := rfl
@[simp] theorem State.flagOscFail_disicnt : (s.flagOscFail).disicnt = s.disicnt := rfl
@[simp] theorem State.flagOscFail_splim : (s.flagOscFail).splim = s.splim := rfl
@[simp] theorem State.flagOscFail_trapr : (s.flagOscFail).trapr = s.trapr := rfl
@[simp] theorem State.flagOscFail_cf : (s.flagOscFail).cf = true := rfl
@[simp] theorem State.flagOscFail_accA : (s.flagOscFail).accA = s.accA := rfl
@[simp] theorem State.flagOscFail_accB : (s.flagOscFail).accB = s.accB := rfl
@[simp] theorem State.flagOscFail_splimArmed : (s.flagOscFail).splimArmed = s.splimArmed := rfl
@[simp] theorem State.flagOscFail_pmode : (s.flagOscFail).pmode = s.pmode := rfl
@[simp] theorem State.flagOscFail_pin : (s.flagOscFail).pin = s.pin := rfl
@[simp] theorem State.flagOscFail_tempPc : (s.flagOscFail).tempPc = s.tempPc := rfl
@[simp] theorem State.flagOscFail_tempSrl : (s.flagOscFail).tempSrl = s.tempSrl := rfl
@[simp] theorem State.flagOscFail_irqSkid : (s.flagOscFail).irqSkid = s.irqSkid := rfl
@[simp] theorem State.flagOscFail_stkAge : (s.flagOscFail).stkAge = s.stkAge := rfl
@[simp] theorem State.flagOscFail_mathAge : (s.flagOscFail).mathAge = s.mathAge := rfl
@[simp] theorem State.flagOscFail_data : (s.flagOscFail).data = s.data := rfl
@[simp] theorem State.flagOscFail_prog : (s.flagOscFail).prog = s.prog := rfl
@[simp] theorem State.flagOscFail_inttregHold : (s.flagOscFail).inttregHold = s.inttregHold := rfl
@[simp] theorem State.flagOscFail_ipcStale : (s.flagOscFail).ipcStale = s.ipcStale := rfl
@[simp] theorem State.flagOscFail_conflictDue : (s.flagOscFail).conflictDue = s.conflictDue := rfl
@[simp] theorem State.flagOscFail_inputs : (s.flagOscFail).inputs = s.inputs := rfl
@[simp] theorem State.flagOscFail_draws : (s.flagOscFail).draws = s.draws := rfl
@[simp] theorem State.flagOscFail_device : (s.flagOscFail).device = s.device := rfl

/-! ### `State.withAccOverflow` -/

@[simp] theorem State.withAccOverflow_pc (x : Acc) (b : Bool) : (s.withAccOverflow x b).pc = s.pc := rfl
@[simp] theorem State.withAccOverflow_w (x : Acc) (b : Bool) : (s.withAccOverflow x b).w = s.w := rfl
@[simp] theorem State.withAccOverflow_corcon (x : Acc) (b : Bool) : (s.withAccOverflow x b).corcon = s.corcon := rfl
@[simp] theorem State.withAccOverflow_intcon1 (x : Acc) (b : Bool) : (s.withAccOverflow x b).intcon1 = s.intcon1 := rfl
@[simp] theorem State.withAccOverflow_intcon2 (x : Acc) (b : Bool) : (s.withAccOverflow x b).intcon2 = s.intcon2 := rfl
@[simp] theorem State.withAccOverflow_ifs (x : Acc) (b : Bool) : (s.withAccOverflow x b).ifs = s.ifs := rfl
@[simp] theorem State.withAccOverflow_iec (x : Acc) (b : Bool) : (s.withAccOverflow x b).iec = s.iec := rfl
@[simp] theorem State.withAccOverflow_ipc (x : Acc) (b : Bool) : (s.withAccOverflow x b).ipc = s.ipc := rfl
@[simp] theorem State.withAccOverflow_inttreg (x : Acc) (b : Bool) : (s.withAccOverflow x b).inttreg = s.inttreg := rfl
@[simp] theorem State.withAccOverflow_disicnt (x : Acc) (b : Bool) : (s.withAccOverflow x b).disicnt = s.disicnt := rfl
@[simp] theorem State.withAccOverflow_splim (x : Acc) (b : Bool) : (s.withAccOverflow x b).splim = s.splim := rfl
@[simp] theorem State.withAccOverflow_trapr (x : Acc) (b : Bool) : (s.withAccOverflow x b).trapr = s.trapr := rfl
@[simp] theorem State.withAccOverflow_cf (x : Acc) (b : Bool) : (s.withAccOverflow x b).cf = s.cf := rfl
@[simp] theorem State.withAccOverflow_accA (x : Acc) (b : Bool) : (s.withAccOverflow x b).accA = s.accA := rfl
@[simp] theorem State.withAccOverflow_accB (x : Acc) (b : Bool) : (s.withAccOverflow x b).accB = s.accB := rfl
@[simp] theorem State.withAccOverflow_splimArmed (x : Acc) (b : Bool) :
    (s.withAccOverflow x b).splimArmed = s.splimArmed := rfl
@[simp] theorem State.withAccOverflow_pmode (x : Acc) (b : Bool) : (s.withAccOverflow x b).pmode = s.pmode := rfl
@[simp] theorem State.withAccOverflow_pin (x : Acc) (b : Bool) : (s.withAccOverflow x b).pin = s.pin := rfl
@[simp] theorem State.withAccOverflow_tempPc (x : Acc) (b : Bool) : (s.withAccOverflow x b).tempPc = s.tempPc := rfl
@[simp] theorem State.withAccOverflow_tempSrl (x : Acc) (b : Bool) : (s.withAccOverflow x b).tempSrl = s.tempSrl := rfl
@[simp] theorem State.withAccOverflow_irqSkid (x : Acc) (b : Bool) : (s.withAccOverflow x b).irqSkid = s.irqSkid := rfl
@[simp] theorem State.withAccOverflow_stkAge (x : Acc) (b : Bool) : (s.withAccOverflow x b).stkAge = s.stkAge := rfl
@[simp] theorem State.withAccOverflow_mathAge (x : Acc) (b : Bool) : (s.withAccOverflow x b).mathAge = s.mathAge := rfl
@[simp] theorem State.withAccOverflow_data (x : Acc) (b : Bool) : (s.withAccOverflow x b).data = s.data := rfl
@[simp] theorem State.withAccOverflow_prog (x : Acc) (b : Bool) : (s.withAccOverflow x b).prog = s.prog := rfl
@[simp] theorem State.withAccOverflow_inttregHold (x : Acc) (b : Bool) :
    (s.withAccOverflow x b).inttregHold = s.inttregHold := rfl
@[simp] theorem State.withAccOverflow_ipcStale (x : Acc) (b : Bool) :
    (s.withAccOverflow x b).ipcStale = s.ipcStale := rfl
@[simp] theorem State.withAccOverflow_conflictDue (x : Acc) (b : Bool) :
    (s.withAccOverflow x b).conflictDue = s.conflictDue := rfl
@[simp] theorem State.withAccOverflow_inputs (x : Acc) (b : Bool) : (s.withAccOverflow x b).inputs = s.inputs := rfl
@[simp] theorem State.withAccOverflow_draws (x : Acc) (b : Bool) : (s.withAccOverflow x b).draws = s.draws := rfl
@[simp] theorem State.withAccOverflow_device (x : Acc) (b : Bool) : (s.withAccOverflow x b).device = s.device := rfl

/-! ### `State.withCoreFlags` -/

@[simp] theorem State.withCoreFlags_pc (v : Word) : (s.withCoreFlags v).pc = s.pc := rfl
@[simp] theorem State.withCoreFlags_w (v : Word) : (s.withCoreFlags v).w = s.w := rfl
@[simp] theorem State.withCoreFlags_corcon (v : Word) : (s.withCoreFlags v).corcon = s.corcon := rfl
@[simp] theorem State.withCoreFlags_intcon1 (v : Word) : (s.withCoreFlags v).intcon1 = s.intcon1 := rfl
@[simp] theorem State.withCoreFlags_intcon2 (v : Word) : (s.withCoreFlags v).intcon2 = s.intcon2 := rfl
@[simp] theorem State.withCoreFlags_ifs (v : Word) : (s.withCoreFlags v).ifs = s.ifs := rfl
@[simp] theorem State.withCoreFlags_iec (v : Word) : (s.withCoreFlags v).iec = s.iec := rfl
@[simp] theorem State.withCoreFlags_ipc (v : Word) : (s.withCoreFlags v).ipc = s.ipc := rfl
@[simp] theorem State.withCoreFlags_inttreg (v : Word) : (s.withCoreFlags v).inttreg = s.inttreg := rfl
@[simp] theorem State.withCoreFlags_disicnt (v : Word) : (s.withCoreFlags v).disicnt = s.disicnt := rfl
@[simp] theorem State.withCoreFlags_splim (v : Word) : (s.withCoreFlags v).splim = s.splim := rfl
@[simp] theorem State.withCoreFlags_trapr (v : Word) : (s.withCoreFlags v).trapr = s.trapr := rfl
@[simp] theorem State.withCoreFlags_cf (v : Word) : (s.withCoreFlags v).cf = s.cf := rfl
@[simp] theorem State.withCoreFlags_accA (v : Word) : (s.withCoreFlags v).accA = s.accA := rfl
@[simp] theorem State.withCoreFlags_accB (v : Word) : (s.withCoreFlags v).accB = s.accB := rfl
@[simp] theorem State.withCoreFlags_splimArmed (v : Word) : (s.withCoreFlags v).splimArmed = s.splimArmed := rfl
@[simp] theorem State.withCoreFlags_pmode (v : Word) : (s.withCoreFlags v).pmode = s.pmode := rfl
@[simp] theorem State.withCoreFlags_pin (v : Word) : (s.withCoreFlags v).pin = s.pin := rfl
@[simp] theorem State.withCoreFlags_tempPc (v : Word) : (s.withCoreFlags v).tempPc = s.tempPc := rfl
@[simp] theorem State.withCoreFlags_tempSrl (v : Word) : (s.withCoreFlags v).tempSrl = s.tempSrl := rfl
@[simp] theorem State.withCoreFlags_irqSkid (v : Word) : (s.withCoreFlags v).irqSkid = s.irqSkid := rfl
@[simp] theorem State.withCoreFlags_stkAge (v : Word) : (s.withCoreFlags v).stkAge = s.stkAge := rfl
@[simp] theorem State.withCoreFlags_mathAge (v : Word) : (s.withCoreFlags v).mathAge = s.mathAge := rfl
@[simp] theorem State.withCoreFlags_data (v : Word) : (s.withCoreFlags v).data = s.data := rfl
@[simp] theorem State.withCoreFlags_prog (v : Word) : (s.withCoreFlags v).prog = s.prog := rfl
@[simp] theorem State.withCoreFlags_inttregHold (v : Word) : (s.withCoreFlags v).inttregHold = s.inttregHold := rfl
@[simp] theorem State.withCoreFlags_ipcStale (v : Word) : (s.withCoreFlags v).ipcStale = s.ipcStale := rfl
@[simp] theorem State.withCoreFlags_conflictDue (v : Word) : (s.withCoreFlags v).conflictDue = s.conflictDue := rfl
@[simp] theorem State.withCoreFlags_inputs (v : Word) : (s.withCoreFlags v).inputs = s.inputs := rfl
@[simp] theorem State.withCoreFlags_draws (v : Word) : (s.withCoreFlags v).draws = s.draws := rfl
@[simp] theorem State.withCoreFlags_device (v : Word) : (s.withCoreFlags v).device = s.device := rfl

/-! ### `State.withDoLevel` -/

@[simp] theorem State.withDoLevel_pc (n : BitVec 3) : (s.withDoLevel n).pc = s.pc := rfl
@[simp] theorem State.withDoLevel_w (n : BitVec 3) : (s.withDoLevel n).w = s.w := rfl
@[simp] theorem State.withDoLevel_sr (n : BitVec 3) : (s.withDoLevel n).sr = s.sr := rfl
@[simp] theorem State.withDoLevel_corcon (n : BitVec 3) :
    (s.withDoLevel n).corcon = merge s.corcon (n.setWidth 16 <<< 8) 0x0700#16 := rfl
@[simp] theorem State.withDoLevel_intcon1 (n : BitVec 3) : (s.withDoLevel n).intcon1 = s.intcon1 := rfl
@[simp] theorem State.withDoLevel_intcon2 (n : BitVec 3) : (s.withDoLevel n).intcon2 = s.intcon2 := rfl
@[simp] theorem State.withDoLevel_ifs (n : BitVec 3) : (s.withDoLevel n).ifs = s.ifs := rfl
@[simp] theorem State.withDoLevel_iec (n : BitVec 3) : (s.withDoLevel n).iec = s.iec := rfl
@[simp] theorem State.withDoLevel_ipc (n : BitVec 3) : (s.withDoLevel n).ipc = s.ipc := rfl
@[simp] theorem State.withDoLevel_inttreg (n : BitVec 3) : (s.withDoLevel n).inttreg = s.inttreg := rfl
@[simp] theorem State.withDoLevel_disicnt (n : BitVec 3) : (s.withDoLevel n).disicnt = s.disicnt := rfl
@[simp] theorem State.withDoLevel_splim (n : BitVec 3) : (s.withDoLevel n).splim = s.splim := rfl
@[simp] theorem State.withDoLevel_trapr (n : BitVec 3) : (s.withDoLevel n).trapr = s.trapr := rfl
@[simp] theorem State.withDoLevel_cf (n : BitVec 3) : (s.withDoLevel n).cf = s.cf := rfl
@[simp] theorem State.withDoLevel_accA (n : BitVec 3) : (s.withDoLevel n).accA = s.accA := rfl
@[simp] theorem State.withDoLevel_accB (n : BitVec 3) : (s.withDoLevel n).accB = s.accB := rfl
@[simp] theorem State.withDoLevel_splimArmed (n : BitVec 3) : (s.withDoLevel n).splimArmed = s.splimArmed := rfl
@[simp] theorem State.withDoLevel_pmode (n : BitVec 3) : (s.withDoLevel n).pmode = s.pmode := rfl
@[simp] theorem State.withDoLevel_pin (n : BitVec 3) : (s.withDoLevel n).pin = s.pin := rfl
@[simp] theorem State.withDoLevel_tempPc (n : BitVec 3) : (s.withDoLevel n).tempPc = s.tempPc := rfl
@[simp] theorem State.withDoLevel_tempSrl (n : BitVec 3) : (s.withDoLevel n).tempSrl = s.tempSrl := rfl
@[simp] theorem State.withDoLevel_irqSkid (n : BitVec 3) : (s.withDoLevel n).irqSkid = s.irqSkid := rfl
@[simp] theorem State.withDoLevel_stkAge (n : BitVec 3) : (s.withDoLevel n).stkAge = s.stkAge := rfl
@[simp] theorem State.withDoLevel_mathAge (n : BitVec 3) : (s.withDoLevel n).mathAge = s.mathAge := rfl
@[simp] theorem State.withDoLevel_data (n : BitVec 3) : (s.withDoLevel n).data = s.data := rfl
@[simp] theorem State.withDoLevel_prog (n : BitVec 3) : (s.withDoLevel n).prog = s.prog := rfl
@[simp] theorem State.withDoLevel_inttregHold (n : BitVec 3) : (s.withDoLevel n).inttregHold = s.inttregHold := rfl
@[simp] theorem State.withDoLevel_ipcStale (n : BitVec 3) : (s.withDoLevel n).ipcStale = s.ipcStale := rfl
@[simp] theorem State.withDoLevel_conflictDue (n : BitVec 3) : (s.withDoLevel n).conflictDue = s.conflictDue := rfl
@[simp] theorem State.withDoLevel_inputs (n : BitVec 3) : (s.withDoLevel n).inputs = s.inputs := rfl
@[simp] theorem State.withDoLevel_draws (n : BitVec 3) : (s.withDoLevel n).draws = s.draws := rfl
@[simp] theorem State.withDoLevel_device (n : BitVec 3) : (s.withDoLevel n).device = s.device := rfl

/-! ### `State.drawn` -/

@[simp] theorem State.drawn_pc (n : Nat) : (s.drawn n).pc = s.pc := rfl
@[simp] theorem State.drawn_w (n : Nat) : (s.drawn n).w = s.w := rfl
@[simp] theorem State.drawn_sr (n : Nat) : (s.drawn n).sr = s.sr := rfl
@[simp] theorem State.drawn_corcon (n : Nat) : (s.drawn n).corcon = s.corcon := rfl
@[simp] theorem State.drawn_intcon1 (n : Nat) : (s.drawn n).intcon1 = s.intcon1 := rfl
@[simp] theorem State.drawn_intcon2 (n : Nat) : (s.drawn n).intcon2 = s.intcon2 := rfl
@[simp] theorem State.drawn_ifs (n : Nat) : (s.drawn n).ifs = s.ifs := rfl
@[simp] theorem State.drawn_iec (n : Nat) : (s.drawn n).iec = s.iec := rfl
@[simp] theorem State.drawn_ipc (n : Nat) : (s.drawn n).ipc = s.ipc := rfl
@[simp] theorem State.drawn_inttreg (n : Nat) : (s.drawn n).inttreg = s.inttreg := rfl
@[simp] theorem State.drawn_disicnt (n : Nat) : (s.drawn n).disicnt = s.disicnt := rfl
@[simp] theorem State.drawn_splim (n : Nat) : (s.drawn n).splim = s.splim := rfl
@[simp] theorem State.drawn_trapr (n : Nat) : (s.drawn n).trapr = s.trapr := rfl
@[simp] theorem State.drawn_cf (n : Nat) : (s.drawn n).cf = s.cf := rfl
@[simp] theorem State.drawn_accA (n : Nat) : (s.drawn n).accA = s.accA := rfl
@[simp] theorem State.drawn_accB (n : Nat) : (s.drawn n).accB = s.accB := rfl
@[simp] theorem State.drawn_splimArmed (n : Nat) : (s.drawn n).splimArmed = s.splimArmed := rfl
@[simp] theorem State.drawn_pmode (n : Nat) : (s.drawn n).pmode = s.pmode := rfl
@[simp] theorem State.drawn_pin (n : Nat) : (s.drawn n).pin = s.pin := rfl
@[simp] theorem State.drawn_tempPc (n : Nat) : (s.drawn n).tempPc = s.tempPc := rfl
@[simp] theorem State.drawn_tempSrl (n : Nat) : (s.drawn n).tempSrl = s.tempSrl := rfl
@[simp] theorem State.drawn_irqSkid (n : Nat) : (s.drawn n).irqSkid = s.irqSkid := rfl
@[simp] theorem State.drawn_stkAge (n : Nat) : (s.drawn n).stkAge = s.stkAge := rfl
@[simp] theorem State.drawn_mathAge (n : Nat) : (s.drawn n).mathAge = s.mathAge := rfl
@[simp] theorem State.drawn_data (n : Nat) : (s.drawn n).data = s.data := rfl
@[simp] theorem State.drawn_prog (n : Nat) : (s.drawn n).prog = s.prog := rfl
@[simp] theorem State.drawn_inttregHold (n : Nat) : (s.drawn n).inttregHold = s.inttregHold := rfl
@[simp] theorem State.drawn_ipcStale (n : Nat) : (s.drawn n).ipcStale = s.ipcStale := rfl
@[simp] theorem State.drawn_conflictDue (n : Nat) : (s.drawn n).conflictDue = s.conflictDue := rfl
@[simp] theorem State.drawn_inputs (n : Nat) : (s.drawn n).inputs = s.inputs := rfl
@[simp] theorem State.drawn_draws (n : Nat) : (s.drawn n).draws = s.draws + n := rfl
@[simp] theorem State.drawn_device (n : Nat) : (s.drawn n).device = s.device := rfl

/-! ### `State.setSp` -/

@[simp] theorem State.setSp_pc (v : Word) : (s.setSp v).pc = s.pc := rfl
@[simp] theorem State.setSp_w (v : Word) : (s.setSp v).w = s.w.set 15 (evenWord v) := rfl
@[simp] theorem State.setSp_sr (v : Word) : (s.setSp v).sr = s.sr := rfl
@[simp] theorem State.setSp_corcon (v : Word) : (s.setSp v).corcon = s.corcon := rfl
@[simp] theorem State.setSp_intcon1 (v : Word) : (s.setSp v).intcon1 = s.intcon1 := rfl
@[simp] theorem State.setSp_intcon2 (v : Word) : (s.setSp v).intcon2 = s.intcon2 := rfl
@[simp] theorem State.setSp_ifs (v : Word) : (s.setSp v).ifs = s.ifs := rfl
@[simp] theorem State.setSp_iec (v : Word) : (s.setSp v).iec = s.iec := rfl
@[simp] theorem State.setSp_ipc (v : Word) : (s.setSp v).ipc = s.ipc := rfl
@[simp] theorem State.setSp_inttreg (v : Word) : (s.setSp v).inttreg = s.inttreg := rfl
@[simp] theorem State.setSp_disicnt (v : Word) : (s.setSp v).disicnt = s.disicnt := rfl
@[simp] theorem State.setSp_splim (v : Word) : (s.setSp v).splim = s.splim := rfl
@[simp] theorem State.setSp_trapr (v : Word) : (s.setSp v).trapr = s.trapr := rfl
@[simp] theorem State.setSp_cf (v : Word) : (s.setSp v).cf = s.cf := rfl
@[simp] theorem State.setSp_accA (v : Word) : (s.setSp v).accA = s.accA := rfl
@[simp] theorem State.setSp_accB (v : Word) : (s.setSp v).accB = s.accB := rfl
@[simp] theorem State.setSp_splimArmed (v : Word) : (s.setSp v).splimArmed = s.splimArmed := rfl
@[simp] theorem State.setSp_pmode (v : Word) : (s.setSp v).pmode = s.pmode := rfl
@[simp] theorem State.setSp_pin (v : Word) : (s.setSp v).pin = s.pin := rfl
@[simp] theorem State.setSp_tempPc (v : Word) : (s.setSp v).tempPc = s.tempPc := rfl
@[simp] theorem State.setSp_tempSrl (v : Word) : (s.setSp v).tempSrl = s.tempSrl := rfl
@[simp] theorem State.setSp_irqSkid (v : Word) : (s.setSp v).irqSkid = s.irqSkid := rfl
@[simp] theorem State.setSp_stkAge (v : Word) : (s.setSp v).stkAge = s.stkAge := rfl
@[simp] theorem State.setSp_mathAge (v : Word) : (s.setSp v).mathAge = s.mathAge := rfl
@[simp] theorem State.setSp_data (v : Word) : (s.setSp v).data = s.data := rfl
@[simp] theorem State.setSp_prog (v : Word) : (s.setSp v).prog = s.prog := rfl
@[simp] theorem State.setSp_inttregHold (v : Word) : (s.setSp v).inttregHold = s.inttregHold := rfl
@[simp] theorem State.setSp_ipcStale (v : Word) : (s.setSp v).ipcStale = s.ipcStale := rfl
@[simp] theorem State.setSp_conflictDue (v : Word) : (s.setSp v).conflictDue = s.conflictDue := rfl
@[simp] theorem State.setSp_inputs (v : Word) : (s.setSp v).inputs = s.inputs := rfl
@[simp] theorem State.setSp_draws (v : Word) : (s.setSp v).draws = s.draws := rfl
@[simp] theorem State.setSp_device (v : Word) : (s.setSp v).device = s.device := rfl

/-! ### `State.setPc` -/

@[simp] theorem State.setPc_pc (a : ProgAddr) : (s.setPc a).pc = evenPc a := rfl
@[simp] theorem State.setPc_w (a : ProgAddr) : (s.setPc a).w = s.w := rfl
@[simp] theorem State.setPc_sr (a : ProgAddr) : (s.setPc a).sr = s.sr := rfl
@[simp] theorem State.setPc_corcon (a : ProgAddr) : (s.setPc a).corcon = s.corcon := rfl
@[simp] theorem State.setPc_intcon1 (a : ProgAddr) : (s.setPc a).intcon1 = s.intcon1 := rfl
@[simp] theorem State.setPc_intcon2 (a : ProgAddr) : (s.setPc a).intcon2 = s.intcon2 := rfl
@[simp] theorem State.setPc_ifs (a : ProgAddr) : (s.setPc a).ifs = s.ifs := rfl
@[simp] theorem State.setPc_iec (a : ProgAddr) : (s.setPc a).iec = s.iec := rfl
@[simp] theorem State.setPc_ipc (a : ProgAddr) : (s.setPc a).ipc = s.ipc := rfl
@[simp] theorem State.setPc_inttreg (a : ProgAddr) : (s.setPc a).inttreg = s.inttreg := rfl
@[simp] theorem State.setPc_disicnt (a : ProgAddr) : (s.setPc a).disicnt = s.disicnt := rfl
@[simp] theorem State.setPc_splim (a : ProgAddr) : (s.setPc a).splim = s.splim := rfl
@[simp] theorem State.setPc_trapr (a : ProgAddr) : (s.setPc a).trapr = s.trapr := rfl
@[simp] theorem State.setPc_cf (a : ProgAddr) : (s.setPc a).cf = s.cf := rfl
@[simp] theorem State.setPc_accA (a : ProgAddr) : (s.setPc a).accA = s.accA := rfl
@[simp] theorem State.setPc_accB (a : ProgAddr) : (s.setPc a).accB = s.accB := rfl
@[simp] theorem State.setPc_splimArmed (a : ProgAddr) : (s.setPc a).splimArmed = s.splimArmed := rfl
@[simp] theorem State.setPc_pmode (a : ProgAddr) : (s.setPc a).pmode = s.pmode := rfl
@[simp] theorem State.setPc_pin (a : ProgAddr) : (s.setPc a).pin = s.pin := rfl
@[simp] theorem State.setPc_tempPc (a : ProgAddr) : (s.setPc a).tempPc = s.tempPc := rfl
@[simp] theorem State.setPc_tempSrl (a : ProgAddr) : (s.setPc a).tempSrl = s.tempSrl := rfl
@[simp] theorem State.setPc_irqSkid (a : ProgAddr) : (s.setPc a).irqSkid = s.irqSkid := rfl
@[simp] theorem State.setPc_stkAge (a : ProgAddr) : (s.setPc a).stkAge = s.stkAge := rfl
@[simp] theorem State.setPc_mathAge (a : ProgAddr) : (s.setPc a).mathAge = s.mathAge := rfl
@[simp] theorem State.setPc_data (a : ProgAddr) : (s.setPc a).data = s.data := rfl
@[simp] theorem State.setPc_prog (a : ProgAddr) : (s.setPc a).prog = s.prog := rfl
@[simp] theorem State.setPc_inttregHold (a : ProgAddr) : (s.setPc a).inttregHold = s.inttregHold := rfl
@[simp] theorem State.setPc_ipcStale (a : ProgAddr) : (s.setPc a).ipcStale = s.ipcStale := rfl
@[simp] theorem State.setPc_conflictDue (a : ProgAddr) : (s.setPc a).conflictDue = s.conflictDue := rfl
@[simp] theorem State.setPc_inputs (a : ProgAddr) : (s.setPc a).inputs = s.inputs := rfl
@[simp] theorem State.setPc_draws (a : ProgAddr) : (s.setPc a).draws = s.draws := rfl
@[simp] theorem State.setPc_device (a : ProgAddr) : (s.setPc a).device = s.device := rfl

/-! ### `State.saveTemp` -/

@[simp] theorem State.saveTemp_pc : (s.saveTemp).pc = s.pc := rfl
@[simp] theorem State.saveTemp_w : (s.saveTemp).w = s.w := rfl
@[simp] theorem State.saveTemp_sr : (s.saveTemp).sr = s.sr := rfl
@[simp] theorem State.saveTemp_corcon : (s.saveTemp).corcon = s.corcon := rfl
@[simp] theorem State.saveTemp_intcon1 : (s.saveTemp).intcon1 = s.intcon1 := rfl
@[simp] theorem State.saveTemp_intcon2 : (s.saveTemp).intcon2 = s.intcon2 := rfl
@[simp] theorem State.saveTemp_ifs : (s.saveTemp).ifs = s.ifs := rfl
@[simp] theorem State.saveTemp_iec : (s.saveTemp).iec = s.iec := rfl
@[simp] theorem State.saveTemp_ipc : (s.saveTemp).ipc = s.ipc := rfl
@[simp] theorem State.saveTemp_inttreg : (s.saveTemp).inttreg = s.inttreg := rfl
@[simp] theorem State.saveTemp_disicnt : (s.saveTemp).disicnt = s.disicnt := rfl
@[simp] theorem State.saveTemp_splim : (s.saveTemp).splim = s.splim := rfl
@[simp] theorem State.saveTemp_trapr : (s.saveTemp).trapr = s.trapr := rfl
@[simp] theorem State.saveTemp_cf : (s.saveTemp).cf = s.cf := rfl
@[simp] theorem State.saveTemp_accA : (s.saveTemp).accA = s.accA := rfl
@[simp] theorem State.saveTemp_accB : (s.saveTemp).accB = s.accB := rfl
@[simp] theorem State.saveTemp_splimArmed : (s.saveTemp).splimArmed = s.splimArmed := rfl
@[simp] theorem State.saveTemp_pmode : (s.saveTemp).pmode = s.pmode := rfl
@[simp] theorem State.saveTemp_pin : (s.saveTemp).pin = s.pin := rfl
@[simp] theorem State.saveTemp_tempPc : (s.saveTemp).tempPc = s.pc := rfl
@[simp] theorem State.saveTemp_tempSrl : (s.saveTemp).tempSrl = s.srl := rfl
@[simp] theorem State.saveTemp_irqSkid : (s.saveTemp).irqSkid = s.irqSkid := rfl
@[simp] theorem State.saveTemp_stkAge : (s.saveTemp).stkAge = s.stkAge := rfl
@[simp] theorem State.saveTemp_mathAge : (s.saveTemp).mathAge = s.mathAge := rfl
@[simp] theorem State.saveTemp_data : (s.saveTemp).data = s.data := rfl
@[simp] theorem State.saveTemp_prog : (s.saveTemp).prog = s.prog := rfl
@[simp] theorem State.saveTemp_inttregHold : (s.saveTemp).inttregHold = s.inttregHold := rfl
@[simp] theorem State.saveTemp_ipcStale : (s.saveTemp).ipcStale = s.ipcStale := rfl
@[simp] theorem State.saveTemp_conflictDue : (s.saveTemp).conflictDue = s.conflictDue := rfl
@[simp] theorem State.saveTemp_inputs : (s.saveTemp).inputs = s.inputs := rfl
@[simp] theorem State.saveTemp_draws : (s.saveTemp).draws = s.draws := rfl
@[simp] theorem State.saveTemp_device : (s.saveTemp).device = s.device := rfl

/-! ### `State.loseInttreg` -/

@[simp] theorem State.loseInttreg_pc : (s.loseInttreg).pc = s.pc := rfl
@[simp] theorem State.loseInttreg_w : (s.loseInttreg).w = s.w := rfl
@[simp] theorem State.loseInttreg_sr : (s.loseInttreg).sr = s.sr := rfl
@[simp] theorem State.loseInttreg_corcon : (s.loseInttreg).corcon = s.corcon := rfl
@[simp] theorem State.loseInttreg_intcon1 : (s.loseInttreg).intcon1 = s.intcon1 := rfl
@[simp] theorem State.loseInttreg_intcon2 : (s.loseInttreg).intcon2 = s.intcon2 := rfl
@[simp] theorem State.loseInttreg_ifs : (s.loseInttreg).ifs = s.ifs := rfl
@[simp] theorem State.loseInttreg_iec : (s.loseInttreg).iec = s.iec := rfl
@[simp] theorem State.loseInttreg_ipc : (s.loseInttreg).ipc = s.ipc := rfl
@[simp] theorem State.loseInttreg_inttreg :
    (s.loseInttreg).inttreg = Config.freeWord s.draws &&& inttregImplemented := rfl
@[simp] theorem State.loseInttreg_disicnt : (s.loseInttreg).disicnt = s.disicnt := rfl
@[simp] theorem State.loseInttreg_splim : (s.loseInttreg).splim = s.splim := rfl
@[simp] theorem State.loseInttreg_trapr : (s.loseInttreg).trapr = s.trapr := rfl
@[simp] theorem State.loseInttreg_cf : (s.loseInttreg).cf = s.cf := rfl
@[simp] theorem State.loseInttreg_accA : (s.loseInttreg).accA = s.accA := rfl
@[simp] theorem State.loseInttreg_accB : (s.loseInttreg).accB = s.accB := rfl
@[simp] theorem State.loseInttreg_splimArmed : (s.loseInttreg).splimArmed = s.splimArmed := rfl
@[simp] theorem State.loseInttreg_pmode : (s.loseInttreg).pmode = s.pmode := rfl
@[simp] theorem State.loseInttreg_pin : (s.loseInttreg).pin = s.pin := rfl
@[simp] theorem State.loseInttreg_tempPc : (s.loseInttreg).tempPc = s.tempPc := rfl
@[simp] theorem State.loseInttreg_tempSrl : (s.loseInttreg).tempSrl = s.tempSrl := rfl
@[simp] theorem State.loseInttreg_irqSkid : (s.loseInttreg).irqSkid = s.irqSkid := rfl
@[simp] theorem State.loseInttreg_stkAge : (s.loseInttreg).stkAge = s.stkAge := rfl
@[simp] theorem State.loseInttreg_mathAge : (s.loseInttreg).mathAge = s.mathAge := rfl
@[simp] theorem State.loseInttreg_data : (s.loseInttreg).data = s.data := rfl
@[simp] theorem State.loseInttreg_prog : (s.loseInttreg).prog = s.prog := rfl
@[simp] theorem State.loseInttreg_inttregHold : (s.loseInttreg).inttregHold = .lost := rfl
@[simp] theorem State.loseInttreg_ipcStale : (s.loseInttreg).ipcStale = s.ipcStale := rfl
@[simp] theorem State.loseInttreg_conflictDue : (s.loseInttreg).conflictDue = s.conflictDue := rfl
@[simp] theorem State.loseInttreg_inputs : (s.loseInttreg).inputs = s.inputs := rfl
@[simp] theorem State.loseInttreg_draws : (s.loseInttreg).draws = s.draws + 1 := rfl
@[simp] theorem State.loseInttreg_device : (s.loseInttreg).device = s.device := rfl

/-! ### `State.ageSoftTraps` -/

@[simp] theorem State.ageSoftTraps_pc : (s.ageSoftTraps).pc = s.pc := rfl
@[simp] theorem State.ageSoftTraps_w : (s.ageSoftTraps).w = s.w := rfl
@[simp] theorem State.ageSoftTraps_sr : (s.ageSoftTraps).sr = s.sr := rfl
@[simp] theorem State.ageSoftTraps_corcon : (s.ageSoftTraps).corcon = s.corcon := rfl
@[simp] theorem State.ageSoftTraps_intcon1 : (s.ageSoftTraps).intcon1 = s.intcon1 := rfl
@[simp] theorem State.ageSoftTraps_intcon2 : (s.ageSoftTraps).intcon2 = s.intcon2 := rfl
@[simp] theorem State.ageSoftTraps_ifs : (s.ageSoftTraps).ifs = s.ifs := rfl
@[simp] theorem State.ageSoftTraps_iec : (s.ageSoftTraps).iec = s.iec := rfl
@[simp] theorem State.ageSoftTraps_ipc : (s.ageSoftTraps).ipc = s.ipc := rfl
@[simp] theorem State.ageSoftTraps_inttreg : (s.ageSoftTraps).inttreg = s.inttreg := rfl
@[simp] theorem State.ageSoftTraps_disicnt : (s.ageSoftTraps).disicnt = s.disicnt := rfl
@[simp] theorem State.ageSoftTraps_splim : (s.ageSoftTraps).splim = s.splim := rfl
@[simp] theorem State.ageSoftTraps_trapr : (s.ageSoftTraps).trapr = s.trapr := rfl
@[simp] theorem State.ageSoftTraps_cf : (s.ageSoftTraps).cf = s.cf := rfl
@[simp] theorem State.ageSoftTraps_accA : (s.ageSoftTraps).accA = s.accA := rfl
@[simp] theorem State.ageSoftTraps_accB : (s.ageSoftTraps).accB = s.accB := rfl
@[simp] theorem State.ageSoftTraps_splimArmed : (s.ageSoftTraps).splimArmed = s.splimArmed := rfl
@[simp] theorem State.ageSoftTraps_pmode : (s.ageSoftTraps).pmode = s.pmode := rfl
@[simp] theorem State.ageSoftTraps_pin : (s.ageSoftTraps).pin = s.pin := rfl
@[simp] theorem State.ageSoftTraps_tempPc : (s.ageSoftTraps).tempPc = s.tempPc := rfl
@[simp] theorem State.ageSoftTraps_tempSrl : (s.ageSoftTraps).tempSrl = s.tempSrl := rfl
@[simp] theorem State.ageSoftTraps_irqSkid : (s.ageSoftTraps).irqSkid = s.irqSkid := rfl
@[simp] theorem State.ageSoftTraps_stkAge :
    (s.ageSoftTraps).stkAge = if s.trapRequested .stack then min Config.softTrapSkidMax (s.stkAge + 1) else 0 := rfl
@[simp] theorem State.ageSoftTraps_mathAge :
    (s.ageSoftTraps).mathAge = if s.trapRequested .math then min Config.softTrapSkidMax (s.mathAge + 1) else 0 := rfl
@[simp] theorem State.ageSoftTraps_data : (s.ageSoftTraps).data = s.data := rfl
@[simp] theorem State.ageSoftTraps_prog : (s.ageSoftTraps).prog = s.prog := rfl
@[simp] theorem State.ageSoftTraps_inttregHold : (s.ageSoftTraps).inttregHold = s.inttregHold := rfl
@[simp] theorem State.ageSoftTraps_ipcStale : (s.ageSoftTraps).ipcStale = s.ipcStale := rfl
@[simp] theorem State.ageSoftTraps_conflictDue : (s.ageSoftTraps).conflictDue = s.conflictDue := rfl
@[simp] theorem State.ageSoftTraps_inputs : (s.ageSoftTraps).inputs = s.inputs := rfl
@[simp] theorem State.ageSoftTraps_draws : (s.ageSoftTraps).draws = s.draws := rfl
@[simp] theorem State.ageSoftTraps_device : (s.ageSoftTraps).device = s.device := rfl

/-! ### `State.writeSr` -/

@[simp] theorem State.writeSr_pc (v : Word) : (s.writeSr v).pc = s.pc := rfl
@[simp] theorem State.writeSr_w (v : Word) : (s.writeSr v).w = s.w := rfl
@[simp] theorem State.writeSr_sr (v : Word) : (s.writeSr v).sr = merge s.sr v (srWritable s.nstdis) := rfl
@[simp] theorem State.writeSr_corcon (v : Word) : (s.writeSr v).corcon = s.corcon := rfl
@[simp] theorem State.writeSr_intcon1 (v : Word) : (s.writeSr v).intcon1 = s.intcon1 := rfl
@[simp] theorem State.writeSr_intcon2 (v : Word) : (s.writeSr v).intcon2 = s.intcon2 := rfl
@[simp] theorem State.writeSr_ifs (v : Word) : (s.writeSr v).ifs = s.ifs := rfl
@[simp] theorem State.writeSr_iec (v : Word) : (s.writeSr v).iec = s.iec := rfl
@[simp] theorem State.writeSr_ipc (v : Word) : (s.writeSr v).ipc = s.ipc := rfl
@[simp] theorem State.writeSr_inttreg (v : Word) : (s.writeSr v).inttreg = s.inttreg := rfl
@[simp] theorem State.writeSr_disicnt (v : Word) : (s.writeSr v).disicnt = s.disicnt := rfl
@[simp] theorem State.writeSr_splim (v : Word) : (s.writeSr v).splim = s.splim := rfl
@[simp] theorem State.writeSr_trapr (v : Word) : (s.writeSr v).trapr = s.trapr := rfl
@[simp] theorem State.writeSr_cf (v : Word) : (s.writeSr v).cf = s.cf := rfl
@[simp] theorem State.writeSr_accA (v : Word) : (s.writeSr v).accA = s.accA := rfl
@[simp] theorem State.writeSr_accB (v : Word) : (s.writeSr v).accB = s.accB := rfl
@[simp] theorem State.writeSr_splimArmed (v : Word) : (s.writeSr v).splimArmed = s.splimArmed := rfl
@[simp] theorem State.writeSr_pmode (v : Word) : (s.writeSr v).pmode = s.pmode := rfl
@[simp] theorem State.writeSr_pin (v : Word) : (s.writeSr v).pin = s.pin := rfl
@[simp] theorem State.writeSr_tempPc (v : Word) : (s.writeSr v).tempPc = s.tempPc := rfl
@[simp] theorem State.writeSr_tempSrl (v : Word) : (s.writeSr v).tempSrl = s.tempSrl := rfl
@[simp] theorem State.writeSr_irqSkid (v : Word) : (s.writeSr v).irqSkid = s.irqSkid := rfl
@[simp] theorem State.writeSr_stkAge (v : Word) : (s.writeSr v).stkAge = s.stkAge := rfl
@[simp] theorem State.writeSr_mathAge (v : Word) : (s.writeSr v).mathAge = s.mathAge := rfl
@[simp] theorem State.writeSr_data (v : Word) : (s.writeSr v).data = s.data := rfl
@[simp] theorem State.writeSr_prog (v : Word) : (s.writeSr v).prog = s.prog := rfl
@[simp] theorem State.writeSr_inttregHold (v : Word) : (s.writeSr v).inttregHold = s.inttregHold := rfl
@[simp] theorem State.writeSr_ipcStale (v : Word) : (s.writeSr v).ipcStale = s.ipcStale := rfl
@[simp] theorem State.writeSr_conflictDue (v : Word) : (s.writeSr v).conflictDue = s.conflictDue := rfl
@[simp] theorem State.writeSr_inputs (v : Word) : (s.writeSr v).inputs = s.inputs := rfl
@[simp] theorem State.writeSr_draws (v : Word) : (s.writeSr v).draws = s.draws := rfl
@[simp] theorem State.writeSr_device (v : Word) : (s.writeSr v).device = s.device := rfl

/-! ### `State.writeCorcon` -/

@[simp] theorem State.writeCorcon_pc (v : Word) : (s.writeCorcon v).pc = s.pc := rfl
@[simp] theorem State.writeCorcon_w (v : Word) : (s.writeCorcon v).w = s.w := rfl
@[simp] theorem State.writeCorcon_sr (v : Word) : (s.writeCorcon v).sr = s.sr := rfl
@[simp] theorem State.writeCorcon_corcon (v : Word) :
    (s.writeCorcon v).corcon = setBitTo (merge s.corcon v corconWritable) 3 (s.ipl3 && v.getLsbD 3) := rfl
@[simp] theorem State.writeCorcon_intcon1 (v : Word) : (s.writeCorcon v).intcon1 = s.intcon1 := rfl
@[simp] theorem State.writeCorcon_intcon2 (v : Word) : (s.writeCorcon v).intcon2 = s.intcon2 := rfl
@[simp] theorem State.writeCorcon_ifs (v : Word) : (s.writeCorcon v).ifs = s.ifs := rfl
@[simp] theorem State.writeCorcon_iec (v : Word) : (s.writeCorcon v).iec = s.iec := rfl
@[simp] theorem State.writeCorcon_ipc (v : Word) : (s.writeCorcon v).ipc = s.ipc := rfl
@[simp] theorem State.writeCorcon_inttreg (v : Word) : (s.writeCorcon v).inttreg = s.inttreg := rfl
@[simp] theorem State.writeCorcon_disicnt (v : Word) : (s.writeCorcon v).disicnt = s.disicnt := rfl
@[simp] theorem State.writeCorcon_splim (v : Word) : (s.writeCorcon v).splim = s.splim := rfl
@[simp] theorem State.writeCorcon_trapr (v : Word) : (s.writeCorcon v).trapr = s.trapr := rfl
@[simp] theorem State.writeCorcon_cf (v : Word) : (s.writeCorcon v).cf = s.cf := rfl
@[simp] theorem State.writeCorcon_accA (v : Word) : (s.writeCorcon v).accA = s.accA := rfl
@[simp] theorem State.writeCorcon_accB (v : Word) : (s.writeCorcon v).accB = s.accB := rfl
@[simp] theorem State.writeCorcon_splimArmed (v : Word) : (s.writeCorcon v).splimArmed = s.splimArmed := rfl
@[simp] theorem State.writeCorcon_pmode (v : Word) : (s.writeCorcon v).pmode = s.pmode := rfl
@[simp] theorem State.writeCorcon_pin (v : Word) : (s.writeCorcon v).pin = s.pin := rfl
@[simp] theorem State.writeCorcon_tempPc (v : Word) : (s.writeCorcon v).tempPc = s.tempPc := rfl
@[simp] theorem State.writeCorcon_tempSrl (v : Word) : (s.writeCorcon v).tempSrl = s.tempSrl := rfl
@[simp] theorem State.writeCorcon_irqSkid (v : Word) : (s.writeCorcon v).irqSkid = s.irqSkid := rfl
@[simp] theorem State.writeCorcon_stkAge (v : Word) : (s.writeCorcon v).stkAge = s.stkAge := rfl
@[simp] theorem State.writeCorcon_mathAge (v : Word) : (s.writeCorcon v).mathAge = s.mathAge := rfl
@[simp] theorem State.writeCorcon_data (v : Word) : (s.writeCorcon v).data = s.data := rfl
@[simp] theorem State.writeCorcon_prog (v : Word) : (s.writeCorcon v).prog = s.prog := rfl
@[simp] theorem State.writeCorcon_inttregHold (v : Word) : (s.writeCorcon v).inttregHold = s.inttregHold := rfl
@[simp] theorem State.writeCorcon_ipcStale (v : Word) : (s.writeCorcon v).ipcStale = s.ipcStale := rfl
@[simp] theorem State.writeCorcon_conflictDue (v : Word) : (s.writeCorcon v).conflictDue = s.conflictDue := rfl
@[simp] theorem State.writeCorcon_inputs (v : Word) : (s.writeCorcon v).inputs = s.inputs := rfl
@[simp] theorem State.writeCorcon_draws (v : Word) : (s.writeCorcon v).draws = s.draws := rfl
@[simp] theorem State.writeCorcon_device (v : Word) : (s.writeCorcon v).device = s.device := rfl

/-! ### `State.writeIntcon1` -/

@[simp] theorem State.writeIntcon1_pc (v : Word) : (s.writeIntcon1 v).pc = s.pc := rfl
@[simp] theorem State.writeIntcon1_w (v : Word) : (s.writeIntcon1 v).w = s.w := rfl
@[simp] theorem State.writeIntcon1_sr (v : Word) : (s.writeIntcon1 v).sr = s.sr := rfl
@[simp] theorem State.writeIntcon1_corcon (v : Word) : (s.writeIntcon1 v).corcon = s.corcon := rfl
@[simp] theorem State.writeIntcon1_intcon1 (v : Word) :
    (s.writeIntcon1 v).intcon1 = setBitTo (merge s.intcon1 v intcon1Writable) 4 (v.getLsbD 4 || (s.trapFlag .math && s.mathCausePersists)) := rfl
@[simp] theorem State.writeIntcon1_intcon2 (v : Word) : (s.writeIntcon1 v).intcon2 = s.intcon2 := rfl
@[simp] theorem State.writeIntcon1_ifs (v : Word) : (s.writeIntcon1 v).ifs = s.ifs := rfl
@[simp] theorem State.writeIntcon1_iec (v : Word) : (s.writeIntcon1 v).iec = s.iec := rfl
@[simp] theorem State.writeIntcon1_ipc (v : Word) : (s.writeIntcon1 v).ipc = s.ipc := rfl
@[simp] theorem State.writeIntcon1_inttreg (v : Word) : (s.writeIntcon1 v).inttreg = s.inttreg := rfl
@[simp] theorem State.writeIntcon1_disicnt (v : Word) : (s.writeIntcon1 v).disicnt = s.disicnt := rfl
@[simp] theorem State.writeIntcon1_splim (v : Word) : (s.writeIntcon1 v).splim = s.splim := rfl
@[simp] theorem State.writeIntcon1_trapr (v : Word) : (s.writeIntcon1 v).trapr = s.trapr := rfl
@[simp] theorem State.writeIntcon1_cf (v : Word) : (s.writeIntcon1 v).cf = s.cf := rfl
@[simp] theorem State.writeIntcon1_accA (v : Word) : (s.writeIntcon1 v).accA = s.accA := rfl
@[simp] theorem State.writeIntcon1_accB (v : Word) : (s.writeIntcon1 v).accB = s.accB := rfl
@[simp] theorem State.writeIntcon1_splimArmed (v : Word) : (s.writeIntcon1 v).splimArmed = s.splimArmed := rfl
@[simp] theorem State.writeIntcon1_pmode (v : Word) : (s.writeIntcon1 v).pmode = s.pmode := rfl
@[simp] theorem State.writeIntcon1_pin (v : Word) : (s.writeIntcon1 v).pin = s.pin := rfl
@[simp] theorem State.writeIntcon1_tempPc (v : Word) : (s.writeIntcon1 v).tempPc = s.tempPc := rfl
@[simp] theorem State.writeIntcon1_tempSrl (v : Word) : (s.writeIntcon1 v).tempSrl = s.tempSrl := rfl
@[simp] theorem State.writeIntcon1_irqSkid (v : Word) : (s.writeIntcon1 v).irqSkid = s.irqSkid := rfl
@[simp] theorem State.writeIntcon1_stkAge (v : Word) : (s.writeIntcon1 v).stkAge = s.stkAge := rfl
@[simp] theorem State.writeIntcon1_mathAge (v : Word) : (s.writeIntcon1 v).mathAge = s.mathAge := rfl
@[simp] theorem State.writeIntcon1_data (v : Word) : (s.writeIntcon1 v).data = s.data := rfl
@[simp] theorem State.writeIntcon1_prog (v : Word) : (s.writeIntcon1 v).prog = s.prog := rfl
@[simp] theorem State.writeIntcon1_inttregHold (v : Word) : (s.writeIntcon1 v).inttregHold = s.inttregHold := rfl
@[simp] theorem State.writeIntcon1_ipcStale (v : Word) : (s.writeIntcon1 v).ipcStale = s.ipcStale := rfl
@[simp] theorem State.writeIntcon1_conflictDue (v : Word) : (s.writeIntcon1 v).conflictDue = s.conflictDue := rfl
@[simp] theorem State.writeIntcon1_inputs (v : Word) : (s.writeIntcon1 v).inputs = s.inputs := rfl
@[simp] theorem State.writeIntcon1_draws (v : Word) : (s.writeIntcon1 v).draws = s.draws := rfl
@[simp] theorem State.writeIntcon1_device (v : Word) : (s.writeIntcon1 v).device = s.device := rfl

/-! ### `State.writeIntcon2` -/

@[simp] theorem State.writeIntcon2_pc (v : Word) : (s.writeIntcon2 v).pc = s.pc := rfl
@[simp] theorem State.writeIntcon2_w (v : Word) : (s.writeIntcon2 v).w = s.w := rfl
@[simp] theorem State.writeIntcon2_sr (v : Word) : (s.writeIntcon2 v).sr = s.sr := rfl
@[simp] theorem State.writeIntcon2_corcon (v : Word) : (s.writeIntcon2 v).corcon = s.corcon := rfl
@[simp] theorem State.writeIntcon2_intcon1 (v : Word) : (s.writeIntcon2 v).intcon1 = s.intcon1 := rfl
@[simp] theorem State.writeIntcon2_intcon2 (v : Word) :
    (s.writeIntcon2 v).intcon2 = merge s.intcon2 v intcon2Writable := rfl
@[simp] theorem State.writeIntcon2_ifs (v : Word) : (s.writeIntcon2 v).ifs = s.ifs := rfl
@[simp] theorem State.writeIntcon2_iec (v : Word) : (s.writeIntcon2 v).iec = s.iec := rfl
@[simp] theorem State.writeIntcon2_ipc (v : Word) : (s.writeIntcon2 v).ipc = s.ipc := rfl
@[simp] theorem State.writeIntcon2_inttreg (v : Word) : (s.writeIntcon2 v).inttreg = s.inttreg := rfl
@[simp] theorem State.writeIntcon2_disicnt (v : Word) : (s.writeIntcon2 v).disicnt = s.disicnt := rfl
@[simp] theorem State.writeIntcon2_splim (v : Word) : (s.writeIntcon2 v).splim = s.splim := rfl
@[simp] theorem State.writeIntcon2_trapr (v : Word) : (s.writeIntcon2 v).trapr = s.trapr := rfl
@[simp] theorem State.writeIntcon2_cf (v : Word) : (s.writeIntcon2 v).cf = s.cf := rfl
@[simp] theorem State.writeIntcon2_accA (v : Word) : (s.writeIntcon2 v).accA = s.accA := rfl
@[simp] theorem State.writeIntcon2_accB (v : Word) : (s.writeIntcon2 v).accB = s.accB := rfl
@[simp] theorem State.writeIntcon2_splimArmed (v : Word) : (s.writeIntcon2 v).splimArmed = s.splimArmed := rfl
@[simp] theorem State.writeIntcon2_pmode (v : Word) : (s.writeIntcon2 v).pmode = s.pmode := rfl
@[simp] theorem State.writeIntcon2_pin (v : Word) : (s.writeIntcon2 v).pin = s.pin := rfl
@[simp] theorem State.writeIntcon2_tempPc (v : Word) : (s.writeIntcon2 v).tempPc = s.tempPc := rfl
@[simp] theorem State.writeIntcon2_tempSrl (v : Word) : (s.writeIntcon2 v).tempSrl = s.tempSrl := rfl
@[simp] theorem State.writeIntcon2_irqSkid (v : Word) : (s.writeIntcon2 v).irqSkid = s.irqSkid := rfl
@[simp] theorem State.writeIntcon2_stkAge (v : Word) : (s.writeIntcon2 v).stkAge = s.stkAge := rfl
@[simp] theorem State.writeIntcon2_mathAge (v : Word) : (s.writeIntcon2 v).mathAge = s.mathAge := rfl
@[simp] theorem State.writeIntcon2_data (v : Word) : (s.writeIntcon2 v).data = s.data := rfl
@[simp] theorem State.writeIntcon2_prog (v : Word) : (s.writeIntcon2 v).prog = s.prog := rfl
@[simp] theorem State.writeIntcon2_inttregHold (v : Word) : (s.writeIntcon2 v).inttregHold = s.inttregHold := rfl
@[simp] theorem State.writeIntcon2_ipcStale (v : Word) : (s.writeIntcon2 v).ipcStale = s.ipcStale := rfl
@[simp] theorem State.writeIntcon2_conflictDue (v : Word) : (s.writeIntcon2 v).conflictDue = s.conflictDue := rfl
@[simp] theorem State.writeIntcon2_inputs (v : Word) : (s.writeIntcon2 v).inputs = s.inputs := rfl
@[simp] theorem State.writeIntcon2_draws (v : Word) : (s.writeIntcon2 v).draws = s.draws := rfl
@[simp] theorem State.writeIntcon2_device (v : Word) : (s.writeIntcon2 v).device = s.device := rfl

/-! ### `State.writeIfs` -/

@[simp] theorem State.writeIfs_pc (k : Fin 3) (v : Word) : (s.writeIfs k v).pc = s.pc := rfl
@[simp] theorem State.writeIfs_w (k : Fin 3) (v : Word) : (s.writeIfs k v).w = s.w := rfl
@[simp] theorem State.writeIfs_sr (k : Fin 3) (v : Word) : (s.writeIfs k v).sr = s.sr := rfl
@[simp] theorem State.writeIfs_corcon (k : Fin 3) (v : Word) : (s.writeIfs k v).corcon = s.corcon := rfl
@[simp] theorem State.writeIfs_intcon1 (k : Fin 3) (v : Word) : (s.writeIfs k v).intcon1 = s.intcon1 := rfl
@[simp] theorem State.writeIfs_intcon2 (k : Fin 3) (v : Word) : (s.writeIfs k v).intcon2 = s.intcon2 := rfl
@[simp] theorem State.writeIfs_ifs (k : Fin 3) (v : Word) :
    (s.writeIfs k v).ifs = setReg s.ifs k (merge (regAt s.ifs k) v (flagMask s.device k)) := rfl
@[simp] theorem State.writeIfs_iec (k : Fin 3) (v : Word) : (s.writeIfs k v).iec = s.iec := rfl
@[simp] theorem State.writeIfs_ipc (k : Fin 3) (v : Word) : (s.writeIfs k v).ipc = s.ipc := rfl
@[simp] theorem State.writeIfs_inttreg (k : Fin 3) (v : Word) : (s.writeIfs k v).inttreg = s.inttreg := rfl
@[simp] theorem State.writeIfs_disicnt (k : Fin 3) (v : Word) : (s.writeIfs k v).disicnt = s.disicnt := rfl
@[simp] theorem State.writeIfs_splim (k : Fin 3) (v : Word) : (s.writeIfs k v).splim = s.splim := rfl
@[simp] theorem State.writeIfs_trapr (k : Fin 3) (v : Word) : (s.writeIfs k v).trapr = s.trapr := rfl
@[simp] theorem State.writeIfs_cf (k : Fin 3) (v : Word) : (s.writeIfs k v).cf = s.cf := rfl
@[simp] theorem State.writeIfs_accA (k : Fin 3) (v : Word) : (s.writeIfs k v).accA = s.accA := rfl
@[simp] theorem State.writeIfs_accB (k : Fin 3) (v : Word) : (s.writeIfs k v).accB = s.accB := rfl
@[simp] theorem State.writeIfs_splimArmed (k : Fin 3) (v : Word) : (s.writeIfs k v).splimArmed = s.splimArmed := rfl
@[simp] theorem State.writeIfs_pmode (k : Fin 3) (v : Word) : (s.writeIfs k v).pmode = s.pmode := rfl
@[simp] theorem State.writeIfs_pin (k : Fin 3) (v : Word) : (s.writeIfs k v).pin = s.pin := rfl
@[simp] theorem State.writeIfs_tempPc (k : Fin 3) (v : Word) : (s.writeIfs k v).tempPc = s.tempPc := rfl
@[simp] theorem State.writeIfs_tempSrl (k : Fin 3) (v : Word) : (s.writeIfs k v).tempSrl = s.tempSrl := rfl
@[simp] theorem State.writeIfs_irqSkid (k : Fin 3) (v : Word) : (s.writeIfs k v).irqSkid = s.irqSkid := rfl
@[simp] theorem State.writeIfs_stkAge (k : Fin 3) (v : Word) : (s.writeIfs k v).stkAge = s.stkAge := rfl
@[simp] theorem State.writeIfs_mathAge (k : Fin 3) (v : Word) : (s.writeIfs k v).mathAge = s.mathAge := rfl
@[simp] theorem State.writeIfs_data (k : Fin 3) (v : Word) : (s.writeIfs k v).data = s.data := rfl
@[simp] theorem State.writeIfs_prog (k : Fin 3) (v : Word) : (s.writeIfs k v).prog = s.prog := rfl
@[simp] theorem State.writeIfs_inttregHold (k : Fin 3) (v : Word) : (s.writeIfs k v).inttregHold = s.inttregHold := rfl
@[simp] theorem State.writeIfs_ipcStale (k : Fin 3) (v : Word) : (s.writeIfs k v).ipcStale = s.ipcStale := rfl
@[simp] theorem State.writeIfs_conflictDue (k : Fin 3) (v : Word) : (s.writeIfs k v).conflictDue = s.conflictDue := rfl
@[simp] theorem State.writeIfs_inputs (k : Fin 3) (v : Word) : (s.writeIfs k v).inputs = s.inputs := rfl
@[simp] theorem State.writeIfs_draws (k : Fin 3) (v : Word) : (s.writeIfs k v).draws = s.draws := rfl
@[simp] theorem State.writeIfs_device (k : Fin 3) (v : Word) : (s.writeIfs k v).device = s.device := rfl

/-! ### `State.writeIec` -/

@[simp] theorem State.writeIec_pc (k : Fin 3) (v : Word) : (s.writeIec k v).pc = s.pc := rfl
@[simp] theorem State.writeIec_w (k : Fin 3) (v : Word) : (s.writeIec k v).w = s.w := rfl
@[simp] theorem State.writeIec_sr (k : Fin 3) (v : Word) : (s.writeIec k v).sr = s.sr := rfl
@[simp] theorem State.writeIec_corcon (k : Fin 3) (v : Word) : (s.writeIec k v).corcon = s.corcon := rfl
@[simp] theorem State.writeIec_intcon1 (k : Fin 3) (v : Word) : (s.writeIec k v).intcon1 = s.intcon1 := rfl
@[simp] theorem State.writeIec_intcon2 (k : Fin 3) (v : Word) : (s.writeIec k v).intcon2 = s.intcon2 := rfl
@[simp] theorem State.writeIec_ifs (k : Fin 3) (v : Word) : (s.writeIec k v).ifs = s.ifs := rfl
@[simp] theorem State.writeIec_iec (k : Fin 3) (v : Word) :
    (s.writeIec k v).iec = setReg s.iec k (merge (regAt s.iec k) v (flagMask s.device k)) := rfl
@[simp] theorem State.writeIec_ipc (k : Fin 3) (v : Word) : (s.writeIec k v).ipc = s.ipc := rfl
@[simp] theorem State.writeIec_inttreg (k : Fin 3) (v : Word) : (s.writeIec k v).inttreg = s.inttreg := rfl
@[simp] theorem State.writeIec_disicnt (k : Fin 3) (v : Word) : (s.writeIec k v).disicnt = s.disicnt := rfl
@[simp] theorem State.writeIec_splim (k : Fin 3) (v : Word) : (s.writeIec k v).splim = s.splim := rfl
@[simp] theorem State.writeIec_trapr (k : Fin 3) (v : Word) : (s.writeIec k v).trapr = s.trapr := rfl
@[simp] theorem State.writeIec_cf (k : Fin 3) (v : Word) : (s.writeIec k v).cf = s.cf := rfl
@[simp] theorem State.writeIec_accA (k : Fin 3) (v : Word) : (s.writeIec k v).accA = s.accA := rfl
@[simp] theorem State.writeIec_accB (k : Fin 3) (v : Word) : (s.writeIec k v).accB = s.accB := rfl
@[simp] theorem State.writeIec_splimArmed (k : Fin 3) (v : Word) : (s.writeIec k v).splimArmed = s.splimArmed := rfl
@[simp] theorem State.writeIec_pmode (k : Fin 3) (v : Word) : (s.writeIec k v).pmode = s.pmode := rfl
@[simp] theorem State.writeIec_pin (k : Fin 3) (v : Word) : (s.writeIec k v).pin = s.pin := rfl
@[simp] theorem State.writeIec_tempPc (k : Fin 3) (v : Word) : (s.writeIec k v).tempPc = s.tempPc := rfl
@[simp] theorem State.writeIec_tempSrl (k : Fin 3) (v : Word) : (s.writeIec k v).tempSrl = s.tempSrl := rfl
@[simp] theorem State.writeIec_irqSkid (k : Fin 3) (v : Word) : (s.writeIec k v).irqSkid = s.irqSkid := rfl
@[simp] theorem State.writeIec_stkAge (k : Fin 3) (v : Word) : (s.writeIec k v).stkAge = s.stkAge := rfl
@[simp] theorem State.writeIec_mathAge (k : Fin 3) (v : Word) : (s.writeIec k v).mathAge = s.mathAge := rfl
@[simp] theorem State.writeIec_data (k : Fin 3) (v : Word) : (s.writeIec k v).data = s.data := rfl
@[simp] theorem State.writeIec_prog (k : Fin 3) (v : Word) : (s.writeIec k v).prog = s.prog := rfl
@[simp] theorem State.writeIec_inttregHold (k : Fin 3) (v : Word) : (s.writeIec k v).inttregHold = s.inttregHold := rfl
@[simp] theorem State.writeIec_ipcStale (k : Fin 3) (v : Word) : (s.writeIec k v).ipcStale = s.ipcStale := rfl
@[simp] theorem State.writeIec_conflictDue (k : Fin 3) (v : Word) : (s.writeIec k v).conflictDue = s.conflictDue := rfl
@[simp] theorem State.writeIec_inputs (k : Fin 3) (v : Word) : (s.writeIec k v).inputs = s.inputs := rfl
@[simp] theorem State.writeIec_draws (k : Fin 3) (v : Word) : (s.writeIec k v).draws = s.draws := rfl
@[simp] theorem State.writeIec_device (k : Fin 3) (v : Word) : (s.writeIec k v).device = s.device := rfl

/-! ### `State.writeIpc` -/

@[simp] theorem State.writeIpc_pc (j : Fin 11) (v : Word) : (s.writeIpc j v).pc = s.pc := rfl
@[simp] theorem State.writeIpc_w (j : Fin 11) (v : Word) : (s.writeIpc j v).w = s.w := rfl
@[simp] theorem State.writeIpc_sr (j : Fin 11) (v : Word) : (s.writeIpc j v).sr = s.sr := rfl
@[simp] theorem State.writeIpc_corcon (j : Fin 11) (v : Word) : (s.writeIpc j v).corcon = s.corcon := rfl
@[simp] theorem State.writeIpc_intcon1 (j : Fin 11) (v : Word) : (s.writeIpc j v).intcon1 = s.intcon1 := rfl
@[simp] theorem State.writeIpc_intcon2 (j : Fin 11) (v : Word) : (s.writeIpc j v).intcon2 = s.intcon2 := rfl
@[simp] theorem State.writeIpc_ifs (j : Fin 11) (v : Word) : (s.writeIpc j v).ifs = s.ifs := rfl
@[simp] theorem State.writeIpc_iec (j : Fin 11) (v : Word) : (s.writeIpc j v).iec = s.iec := rfl
@[simp] theorem State.writeIpc_ipc (j : Fin 11) (v : Word) :
    (s.writeIpc j v).ipc = setReg s.ipc j (merge (regAt s.ipc j) v (priorityMask s.device j)) := rfl
@[simp] theorem State.writeIpc_inttreg (j : Fin 11) (v : Word) : (s.writeIpc j v).inttreg = s.inttreg := rfl
@[simp] theorem State.writeIpc_disicnt (j : Fin 11) (v : Word) : (s.writeIpc j v).disicnt = s.disicnt := rfl
@[simp] theorem State.writeIpc_splim (j : Fin 11) (v : Word) : (s.writeIpc j v).splim = s.splim := rfl
@[simp] theorem State.writeIpc_trapr (j : Fin 11) (v : Word) : (s.writeIpc j v).trapr = s.trapr := rfl
@[simp] theorem State.writeIpc_cf (j : Fin 11) (v : Word) : (s.writeIpc j v).cf = s.cf := rfl
@[simp] theorem State.writeIpc_accA (j : Fin 11) (v : Word) : (s.writeIpc j v).accA = s.accA := rfl
@[simp] theorem State.writeIpc_accB (j : Fin 11) (v : Word) : (s.writeIpc j v).accB = s.accB := rfl
@[simp] theorem State.writeIpc_splimArmed (j : Fin 11) (v : Word) : (s.writeIpc j v).splimArmed = s.splimArmed := rfl
@[simp] theorem State.writeIpc_pmode (j : Fin 11) (v : Word) : (s.writeIpc j v).pmode = s.pmode := rfl
@[simp] theorem State.writeIpc_pin (j : Fin 11) (v : Word) : (s.writeIpc j v).pin = s.pin := rfl
@[simp] theorem State.writeIpc_tempPc (j : Fin 11) (v : Word) : (s.writeIpc j v).tempPc = s.tempPc := rfl
@[simp] theorem State.writeIpc_tempSrl (j : Fin 11) (v : Word) : (s.writeIpc j v).tempSrl = s.tempSrl := rfl
@[simp] theorem State.writeIpc_irqSkid (j : Fin 11) (v : Word) : (s.writeIpc j v).irqSkid = s.irqSkid := rfl
@[simp] theorem State.writeIpc_stkAge (j : Fin 11) (v : Word) : (s.writeIpc j v).stkAge = s.stkAge := rfl
@[simp] theorem State.writeIpc_mathAge (j : Fin 11) (v : Word) : (s.writeIpc j v).mathAge = s.mathAge := rfl
@[simp] theorem State.writeIpc_data (j : Fin 11) (v : Word) : (s.writeIpc j v).data = s.data := rfl
@[simp] theorem State.writeIpc_prog (j : Fin 11) (v : Word) : (s.writeIpc j v).prog = s.prog := rfl
@[simp] theorem State.writeIpc_inttregHold (j : Fin 11) (v : Word) : (s.writeIpc j v).inttregHold = s.inttregHold := rfl
@[simp] theorem State.writeIpc_conflictDue (j : Fin 11) (v : Word) : (s.writeIpc j v).conflictDue = s.conflictDue := rfl
@[simp] theorem State.writeIpc_inputs (j : Fin 11) (v : Word) : (s.writeIpc j v).inputs = s.inputs := rfl
@[simp] theorem State.writeIpc_draws (j : Fin 11) (v : Word) : (s.writeIpc j v).draws = s.draws := rfl
@[simp] theorem State.writeIpc_device (j : Fin 11) (v : Word) : (s.writeIpc j v).device = s.device := rfl

/-! ### `State.writeSplim` -/

@[simp] theorem State.writeSplim_pc (v : Word) : (s.writeSplim v).pc = s.pc := rfl
@[simp] theorem State.writeSplim_w (v : Word) : (s.writeSplim v).w = s.w := rfl
@[simp] theorem State.writeSplim_sr (v : Word) : (s.writeSplim v).sr = s.sr := rfl
@[simp] theorem State.writeSplim_corcon (v : Word) : (s.writeSplim v).corcon = s.corcon := rfl
@[simp] theorem State.writeSplim_intcon1 (v : Word) : (s.writeSplim v).intcon1 = s.intcon1 := rfl
@[simp] theorem State.writeSplim_intcon2 (v : Word) : (s.writeSplim v).intcon2 = s.intcon2 := rfl
@[simp] theorem State.writeSplim_ifs (v : Word) : (s.writeSplim v).ifs = s.ifs := rfl
@[simp] theorem State.writeSplim_iec (v : Word) : (s.writeSplim v).iec = s.iec := rfl
@[simp] theorem State.writeSplim_ipc (v : Word) : (s.writeSplim v).ipc = s.ipc := rfl
@[simp] theorem State.writeSplim_inttreg (v : Word) : (s.writeSplim v).inttreg = s.inttreg := rfl
@[simp] theorem State.writeSplim_disicnt (v : Word) : (s.writeSplim v).disicnt = s.disicnt := rfl
@[simp] theorem State.writeSplim_splim (v : Word) : (s.writeSplim v).splim = evenWord v := rfl
@[simp] theorem State.writeSplim_trapr (v : Word) : (s.writeSplim v).trapr = s.trapr := rfl
@[simp] theorem State.writeSplim_cf (v : Word) : (s.writeSplim v).cf = s.cf := rfl
@[simp] theorem State.writeSplim_accA (v : Word) : (s.writeSplim v).accA = s.accA := rfl
@[simp] theorem State.writeSplim_accB (v : Word) : (s.writeSplim v).accB = s.accB := rfl
@[simp] theorem State.writeSplim_splimArmed (v : Word) : (s.writeSplim v).splimArmed = true := rfl
@[simp] theorem State.writeSplim_pmode (v : Word) : (s.writeSplim v).pmode = s.pmode := rfl
@[simp] theorem State.writeSplim_pin (v : Word) : (s.writeSplim v).pin = s.pin := rfl
@[simp] theorem State.writeSplim_tempPc (v : Word) : (s.writeSplim v).tempPc = s.tempPc := rfl
@[simp] theorem State.writeSplim_tempSrl (v : Word) : (s.writeSplim v).tempSrl = s.tempSrl := rfl
@[simp] theorem State.writeSplim_irqSkid (v : Word) : (s.writeSplim v).irqSkid = s.irqSkid := rfl
@[simp] theorem State.writeSplim_stkAge (v : Word) : (s.writeSplim v).stkAge = s.stkAge := rfl
@[simp] theorem State.writeSplim_mathAge (v : Word) : (s.writeSplim v).mathAge = s.mathAge := rfl
@[simp] theorem State.writeSplim_data (v : Word) : (s.writeSplim v).data = s.data := rfl
@[simp] theorem State.writeSplim_prog (v : Word) : (s.writeSplim v).prog = s.prog := rfl
@[simp] theorem State.writeSplim_inttregHold (v : Word) : (s.writeSplim v).inttregHold = s.inttregHold := rfl
@[simp] theorem State.writeSplim_ipcStale (v : Word) : (s.writeSplim v).ipcStale = s.ipcStale := rfl
@[simp] theorem State.writeSplim_conflictDue (v : Word) : (s.writeSplim v).conflictDue = s.conflictDue := rfl
@[simp] theorem State.writeSplim_inputs (v : Word) : (s.writeSplim v).inputs = s.inputs := rfl
@[simp] theorem State.writeSplim_draws (v : Word) : (s.writeSplim v).draws = s.draws := rfl
@[simp] theorem State.writeSplim_device (v : Word) : (s.writeSplim v).device = s.device := rfl

/-! ### `State.writeRcon` -/

@[simp] theorem State.writeRcon_pc (v : Word) : (s.writeRcon v).pc = s.pc := rfl
@[simp] theorem State.writeRcon_w (v : Word) : (s.writeRcon v).w = s.w := rfl
@[simp] theorem State.writeRcon_sr (v : Word) : (s.writeRcon v).sr = s.sr := rfl
@[simp] theorem State.writeRcon_corcon (v : Word) : (s.writeRcon v).corcon = s.corcon := rfl
@[simp] theorem State.writeRcon_intcon1 (v : Word) : (s.writeRcon v).intcon1 = s.intcon1 := rfl
@[simp] theorem State.writeRcon_intcon2 (v : Word) : (s.writeRcon v).intcon2 = s.intcon2 := rfl
@[simp] theorem State.writeRcon_ifs (v : Word) : (s.writeRcon v).ifs = s.ifs := rfl
@[simp] theorem State.writeRcon_iec (v : Word) : (s.writeRcon v).iec = s.iec := rfl
@[simp] theorem State.writeRcon_ipc (v : Word) : (s.writeRcon v).ipc = s.ipc := rfl
@[simp] theorem State.writeRcon_inttreg (v : Word) : (s.writeRcon v).inttreg = s.inttreg := rfl
@[simp] theorem State.writeRcon_disicnt (v : Word) : (s.writeRcon v).disicnt = s.disicnt := rfl
@[simp] theorem State.writeRcon_splim (v : Word) : (s.writeRcon v).splim = s.splim := rfl
@[simp] theorem State.writeRcon_trapr (v : Word) : (s.writeRcon v).trapr = (s.trapr && v.getLsbD 15) := rfl
@[simp] theorem State.writeRcon_cf (v : Word) : (s.writeRcon v).cf = s.cf := rfl
@[simp] theorem State.writeRcon_accA (v : Word) : (s.writeRcon v).accA = s.accA := rfl
@[simp] theorem State.writeRcon_accB (v : Word) : (s.writeRcon v).accB = s.accB := rfl
@[simp] theorem State.writeRcon_splimArmed (v : Word) : (s.writeRcon v).splimArmed = s.splimArmed := rfl
@[simp] theorem State.writeRcon_pmode (v : Word) : (s.writeRcon v).pmode = s.pmode := rfl
@[simp] theorem State.writeRcon_pin (v : Word) : (s.writeRcon v).pin = s.pin := rfl
@[simp] theorem State.writeRcon_tempPc (v : Word) : (s.writeRcon v).tempPc = s.tempPc := rfl
@[simp] theorem State.writeRcon_tempSrl (v : Word) : (s.writeRcon v).tempSrl = s.tempSrl := rfl
@[simp] theorem State.writeRcon_irqSkid (v : Word) : (s.writeRcon v).irqSkid = s.irqSkid := rfl
@[simp] theorem State.writeRcon_stkAge (v : Word) : (s.writeRcon v).stkAge = s.stkAge := rfl
@[simp] theorem State.writeRcon_mathAge (v : Word) : (s.writeRcon v).mathAge = s.mathAge := rfl
@[simp] theorem State.writeRcon_data (v : Word) : (s.writeRcon v).data = s.data := rfl
@[simp] theorem State.writeRcon_prog (v : Word) : (s.writeRcon v).prog = s.prog := rfl
@[simp] theorem State.writeRcon_inttregHold (v : Word) : (s.writeRcon v).inttregHold = s.inttregHold := rfl
@[simp] theorem State.writeRcon_ipcStale (v : Word) : (s.writeRcon v).ipcStale = s.ipcStale := rfl
@[simp] theorem State.writeRcon_conflictDue (v : Word) : (s.writeRcon v).conflictDue = s.conflictDue := rfl
@[simp] theorem State.writeRcon_inputs (v : Word) : (s.writeRcon v).inputs = s.inputs := rfl
@[simp] theorem State.writeRcon_draws (v : Word) : (s.writeRcon v).draws = s.draws := rfl
@[simp] theorem State.writeRcon_device (v : Word) : (s.writeRcon v).device = s.device := rfl

/-! ### `State.writeOsccon` -/

@[simp] theorem State.writeOsccon_pc : (s.writeOsccon).pc = s.pc := rfl
@[simp] theorem State.writeOsccon_w : (s.writeOsccon).w = s.w := rfl
@[simp] theorem State.writeOsccon_sr : (s.writeOsccon).sr = s.sr := rfl
@[simp] theorem State.writeOsccon_corcon : (s.writeOsccon).corcon = s.corcon := rfl
@[simp] theorem State.writeOsccon_intcon1 : (s.writeOsccon).intcon1 = s.intcon1 := rfl
@[simp] theorem State.writeOsccon_intcon2 : (s.writeOsccon).intcon2 = s.intcon2 := rfl
@[simp] theorem State.writeOsccon_ifs : (s.writeOsccon).ifs = s.ifs := rfl
@[simp] theorem State.writeOsccon_iec : (s.writeOsccon).iec = s.iec := rfl
@[simp] theorem State.writeOsccon_ipc : (s.writeOsccon).ipc = s.ipc := rfl
@[simp] theorem State.writeOsccon_inttreg : (s.writeOsccon).inttreg = s.inttreg := rfl
@[simp] theorem State.writeOsccon_disicnt : (s.writeOsccon).disicnt = s.disicnt := rfl
@[simp] theorem State.writeOsccon_splim : (s.writeOsccon).splim = s.splim := rfl
@[simp] theorem State.writeOsccon_trapr : (s.writeOsccon).trapr = s.trapr := rfl
@[simp] theorem State.writeOsccon_cf : (s.writeOsccon).cf = Config.freeBool s.draws := rfl
@[simp] theorem State.writeOsccon_accA : (s.writeOsccon).accA = s.accA := rfl
@[simp] theorem State.writeOsccon_accB : (s.writeOsccon).accB = s.accB := rfl
@[simp] theorem State.writeOsccon_splimArmed : (s.writeOsccon).splimArmed = s.splimArmed := rfl
@[simp] theorem State.writeOsccon_pmode : (s.writeOsccon).pmode = s.pmode := rfl
@[simp] theorem State.writeOsccon_pin : (s.writeOsccon).pin = s.pin := rfl
@[simp] theorem State.writeOsccon_tempPc : (s.writeOsccon).tempPc = s.tempPc := rfl
@[simp] theorem State.writeOsccon_tempSrl : (s.writeOsccon).tempSrl = s.tempSrl := rfl
@[simp] theorem State.writeOsccon_irqSkid : (s.writeOsccon).irqSkid = s.irqSkid := rfl
@[simp] theorem State.writeOsccon_stkAge : (s.writeOsccon).stkAge = s.stkAge := rfl
@[simp] theorem State.writeOsccon_mathAge : (s.writeOsccon).mathAge = s.mathAge := rfl
@[simp] theorem State.writeOsccon_data : (s.writeOsccon).data = s.data := rfl
@[simp] theorem State.writeOsccon_prog : (s.writeOsccon).prog = s.prog := rfl
@[simp] theorem State.writeOsccon_inttregHold : (s.writeOsccon).inttregHold = s.inttregHold := rfl
@[simp] theorem State.writeOsccon_ipcStale : (s.writeOsccon).ipcStale = s.ipcStale := rfl
@[simp] theorem State.writeOsccon_conflictDue : (s.writeOsccon).conflictDue = s.conflictDue := rfl
@[simp] theorem State.writeOsccon_inputs : (s.writeOsccon).inputs = s.inputs := rfl
@[simp] theorem State.writeOsccon_draws : (s.writeOsccon).draws = s.draws + 1 := rfl
@[simp] theorem State.writeOsccon_device : (s.writeOsccon).device = s.device := rfl

end Sys2Proof.Machine
end

