-- ==== Sys2Proof/Laws/Ops.lean ====
section
/-! SUPPORT. What each shared operation can do, said once: the state it answers as one record over the state before. -/

namespace Sys2Proof.Machine

/-! ### Bits -/

theorem getLsbD_setBitTo (v : Word) (i : Nat) (b : Bool) (j : Nat) :
    (setBitTo v i b).getLsbD j = if i = j ∧ j < 16 then b else v.getLsbD j := by
  unfold setBitTo
  by_cases hj : j < 16
  · by_cases hij : i = j
    · subst hij; cases b <;> simp [hj]
    · have : ¬ (j - i = 0 ∧ ¬ j < i) := by omega
      cases b <;> simp [hij, hj] <;> omega
  · simp [hj, BitVec.getLsbD_of_ge _ j (by omega : 16 ≤ j)]

theorem getLsbD_merge (old new mask : Word) (j : Nat) :
    (merge old new mask).getLsbD j = if mask.getLsbD j = true then new.getLsbD j else old.getLsbD j := by
  unfold merge
  by_cases hj : j < 16
  · cases h : mask.getLsbD j <;> simp_all
  · simp [BitVec.getLsbD_of_ge _ j (by omega : 16 ≤ j)]

theorem regAt_setReg {k : Nat} (v : Vector Word k) (j i : Nat) (x : Word) (h : j < k) :
    regAt (setReg v j x) i = if j = i then x else regAt v i := by
  unfold regAt setReg
  by_cases hij : j = i
  · subst hij; simp [h]
  · simp [hij]

theorem regAt_fin {k : Nat} (v : Vector Word k) (j : Fin k) : regAt v j = v[j] := by
  simp [regAt]

/-! ### Working registers -/

theorem State.getW_w (s : State) (d : BitVec 4) : s.getW d = s.w[d.toNat]'d.isLt := rfl

theorem State.checkSp_eq (s : State) :
    s.checkSp = { s with intcon1 := if s.sp < Config.stackBase then setBitTo s.intcon1 2 true else s.intcon1 } := by
  unfold State.checkSp; split <;> rfl

/-- What a register takes: the value, W15 with its bit 0 at 0. -/
theorem State.setW_eq (s : State) (d : BitVec 4) (v : Word) :
    s.setW d v =
      { s with
        w := s.w.set d.toNat (if d = 15#4 then evenWord v else v) d.isLt } := by
  unfold State.setW
  split
  · subst_vars; rfl
  · rfl

theorem State.getW_setW (s : State) (d e : BitVec 4) (v : Word) :
    (s.setW d v).getW e = if e = d then (if d = 15#4 then evenWord v else v) else s.getW e := by
  rw [State.setW_eq]
  by_cases h : e = d
  · subst h; simp [State.getW]
  · have : d.toNat ≠ e.toNat := fun hh => h (BitVec.eq_of_toNat_eq hh.symm)
    simp [State.getW, h, this]

theorem State.getW_setSp (s : State) (e : BitVec 4) (v : Word) :
    (s.setSp v).getW e = if e = 15#4 then evenWord v else s.getW e := by
  by_cases h : e = 15#4
  · subst h; simp [State.getW]
  · have : (15 : Nat) ≠ e.toNat := fun hh => h (BitVec.eq_of_toNat_eq hh.symm)
    simp [State.getW, h, this]

@[simp] theorem State.sp_setSp (s : State) (v : Word) : (s.setSp v).sp = evenWord v := by
  simp [State.sp]

/-- Losing W15 changes nothing but W15 and the draw counter. -/
theorem State.loseSp_eq (s : State) :
    s.loseSp = { s with w := s.w.set 15 (evenWord (Config.freeWord s.draws)), draws := s.draws + 1 } := rfl

/-- Settling W15 changes nothing but W15, STKERR and the draw counter. -/
theorem State.settleSp_frame (s : State) (b : Bool) :
    s.settleSp b =
      { s with
        w := (s.settleSp b).w
        intcon1 := if b = true ∧ s.sp < Config.stackBase then setBitTo s.intcon1 2 true else s.intcon1
        draws := (s.settleSp b).draws } := by
  unfold State.settleSp
  cases b
  · rfl
  · by_cases h : s.sp < Config.stackBase <;> simp [h, State.loseSp_eq]

/-- W15 is settled only where it was written and stands below 0x0800. -/
theorem State.settleSp_of_ok {s : State} {b : Bool} (h : b = true → 0x0800 ≤ s.sp.toNat) : s.settleSp b = s := by
  unfold State.settleSp
  cases b
  · rfl
  · have : ¬ s.sp < Config.stackBase := Nat.not_lt.2 (h rfl)
    rw [decide_eq_false this]; rfl

/-- The registers but W15 stay. -/
theorem State.getW_settleSp (s : State) (b : Bool) {e : BitVec 4} (h : e ≠ 15#4) : (s.settleSp b).getW e = s.getW e := by
  have : (15 : Nat) ≠ e.toNat := fun hh => h (BitVec.eq_of_toNat_eq hh.symm)
  unfold State.settleSp
  split
  · rw [State.loseSp_eq]; simp [State.getW, State.raiseStackError, this]
  · rfl

/-! ### The program counter -/

theorem State.advance_eq (s : State) (k : Nat) :
    s.advance k =
      if s.pc.toNat + k < Config.progSpace then { s with pc := s.pc + BitVec.ofNat 23 k }
      else { s with pc := evenPc (Config.freePc s.draws), draws := s.draws + 1 } := rfl

/-- `advance` changes nothing but the pc and the draw counter. -/
theorem State.advance_frame (s : State) (k : Nat) : frame s (s.advance k) := by
  unfold frame; rw [State.advance_eq]; split <;> rfl

theorem State.advance_pc (s : State) (h : s.pc.toNat + 2 < 0x800000) : (s.advance 2).pc = s.pc + 2 := by
  rw [State.advance_eq, if_pos (show _ < Config.progSpace from h)]; rfl

/-! ### The clock -/

/-- The count after one cycle. -/
theorem State.countDown_eq (s : State) :
    s.countDown =
      { s with
        disicnt := if s.disicnt = 0 then 0 else s.disicnt - 1
        intcon2 := if s.disicnt = 1 then setBitTo s.intcon2 14 false else s.intcon2 } := by
  unfold State.countDown
  by_cases h0 : s.disicnt = 0
  · rw [if_pos h0, if_pos h0, if_neg (by rw [h0]; decide)]
    cases s; cases h0; rfl
  · rw [if_neg h0, if_neg h0]
    by_cases h1 : s.disicnt = 1
    · rw [if_pos h1, if_pos (by simp [h1])]; rfl
    · rw [if_neg h1, if_neg (show s.disicnt - 1 ≠ 0 from fun h => h1 (by bv_omega))]

theorem State.tick_eq (s : State) :
    s.tick =
      { s with
        disicnt := if s.disicnt = 0 then 0 else s.disicnt - 1
        intcon2 := if s.disicnt = 1 then setBitTo s.intcon2 14 false else s.intcon2
        stkAge := s.tick.stkAge
        mathAge := s.tick.mathAge } := by
  unfold State.tick; rw [State.countDown_eq]; rfl

/-- Any number of cycles changes nothing but the count, the DISI bit and the ages of the soft traps. -/
theorem State.ticks_frame : ∀ (n : Nat) (s : State),
    s.ticks n =
      { s with
        disicnt := (s.ticks n).disicnt
        intcon2 := (s.ticks n).intcon2
        stkAge := (s.ticks n).stkAge
        mathAge := (s.ticks n).mathAge }
  | 0, _ => rfl
  | n + 1, s => by
    have ih := State.ticks_frame n s.tick
    simp only [State.ticks]
    rw [ih, State.tick_eq]

/-- The count after any number of cycles. -/
theorem State.ticks_disicnt : ∀ (n : Nat) (s : State), (s.ticks n).disicnt.toNat = s.disicnt.toNat - n
  | 0, _ => rfl
  | n + 1, s => by
    rw [State.ticks, State.ticks_disicnt n s.tick, State.tick_eq]
    dsimp only
    split
    · simp [*]
    · bv_omega

/-- The other bits of INTCON2 stay while cycles pass. -/
theorem State.ticks_intcon2 : ∀ (n : Nat) (s : State) (b : Nat), b ≠ 14 →
    (s.ticks n).intcon2.getLsbD b = s.intcon2.getLsbD b
  | 0, _, _, _ => rfl
  | n + 1, s, b, h => by
    rw [State.ticks, State.ticks_intcon2 n s.tick b h, State.tick_eq]
    dsimp only
    split
    · rw [getLsbD_setBitTo, if_neg (by omega)]
    · rfl

/-- Whether a `DISI` is still active after any number of cycles. -/
theorem State.ticks_disiActive : ∀ (n : Nat) (s : State),
    (s.ticks n).disiActive = (s.disiActive && !(decide (1 ≤ s.disicnt.toNat) && decide (s.disicnt.toNat ≤ n)))
  | 0, s => by
    have : ¬(1 ≤ s.disicnt.toNat ∧ s.disicnt.toNat ≤ 0) := by omega
    rw [← Bool.decide_and, decide_eq_false this]
    simp [State.ticks]
  | n + 1, s => by
    rw [State.ticks, State.ticks_disiActive n s.tick]
    have ha : s.tick.disiActive = (s.disiActive && !decide (s.disicnt.toNat = 1)) := by
      rw [State.tick_eq]
      unfold State.disiActive
      dsimp only
      by_cases h1 : s.disicnt = 1
      · rw [if_pos h1, getLsbD_setBitTo, h1]; simp
      · have : s.disicnt.toNat ≠ 1 := fun h => h1 (BitVec.eq_of_toNat_eq h)
        rw [if_neg h1]; simp [this]
    have hd : s.tick.disicnt.toNat = s.disicnt.toNat - 1 := State.ticks_disicnt 1 s
    rw [ha, hd, Bool.and_assoc]
    congr 1
    rw [← Bool.decide_and, ← Bool.decide_and, ← decide_not, ← decide_not, ← decide_not, ← Bool.decide_and]
    exact decide_eq_decide.2 (by omega)

/-! ### Interrupt flags and INTTREG -/

/-- `IrqEvent` changes nothing but IFS. -/
theorem State.setIrqFlag_frame (s : State) (n : Nat) : s.setIrqFlag n = { s with ifs := (s.setIrqFlag n).ifs } := by
  unfold State.setIrqFlag; split <;> rfl

/-- Every flag after `IrqEvent`. -/
theorem State.irqFlag_setIrqFlag (s : State) (n m : Nat) :
    (s.setIrqFlag n).irqFlag m = (s.irqFlag m || (implementsSource s.device n && decide (n < 48) && decide (m = n))) := by
  unfold State.setIrqFlag
  split
  · rename_i h
    simp only [State.irqFlag, h]
    by_cases hn : n < 48
    · rw [regAt_setReg _ _ _ _ (by omega)]
      by_cases hm : n / 16 = m / 16
      · rw [if_pos hm, getLsbD_setBitTo]
        by_cases hb : n % 16 = m % 16
        · have : m = n := by omega
          subst this
          rw [if_pos ⟨rfl, by omega⟩]; simp [hn]
        · have : m ≠ n := fun h => hb (by rw [h])
          rw [if_neg (fun h => hb h.1), hm]; simp [this]
      · have : m ≠ n := fun h => hm (by rw [h])
        rw [if_neg hm]; simp [this]
    · have : setReg s.ifs (n / 16) (setBitTo (regAt s.ifs (n / 16)) (n % 16) true) = s.ifs := by
        unfold setReg; exact Vector.setIfInBounds_eq_of_size_le (by omega)
      rw [this]; simp [hn]
  · simp [*]

theorem State.refreshInttreg_frame (s : State) :
    s.refreshInttreg =
      { s with
        inttreg := s.refreshInttreg.inttreg
        inttregHold := s.refreshInttreg.inttregHold
        draws := s.refreshInttreg.draws } := by
  unfold State.refreshInttreg; split <;> rfl

/-- At a boundary nothing changes but INTTREG, its hold, the stale priorities and the draw counter. -/
theorem State.atBoundary_frame (s : State) :
    s.atBoundary =
      { s with
        inttreg := s.atBoundary.inttreg
        inttregHold := s.atBoundary.inttregHold
        ipcStale := none
        draws := s.atBoundary.draws } := by
  unfold State.atBoundary; rw [State.refreshInttreg_frame]

/-- A write to DISICNT changes nothing but the count, the DISI bit and the draw counter. -/
theorem State.writeDisicnt_frame (s : State) (v : Word) :
    s.writeDisicnt v =
      { s with
        disicnt := (s.writeDisicnt v).disicnt
        intcon2 := (s.writeDisicnt v).intcon2
        draws := (s.writeDisicnt v).draws } := by
  unfold State.writeDisicnt; dsimp only; split
  · rfl
  · split <;> rfl

/-! ### Entry -/

/-- The new priority changes nothing but SR and CORCON. -/
theorem State.enterLevel_frame (s : State) (l : Nat) :
    s.enterLevel l = { s with sr := (s.enterLevel l).sr, corcon := (s.enterLevel l).corcon } := by
  unfold State.enterLevel; split
  · rfl
  · split <;> rfl

theorem State.latchInttreg_frame (s : State) (v l : Nat) :
    s.latchInttreg v l =
      { s with
        inttreg := (s.latchInttreg v l).inttreg
        inttregHold := (s.latchInttreg v l).inttregHold
        draws := (s.latchInttreg v l).draws } := by
  unfold State.latchInttreg; split <;> rfl

end Sys2Proof.Machine
end

