-- ==== Sys2Proof/Laws/CoreAgent.lean ====
section
/-! SUPPORT. What an instruction of the CPU core can answer, and which flags its causes set. -/

namespace Sys2Proof.Machine

/-! ### Causes -/

/-- The bits of INTCON1 that a soft cause sets. -/
def causeMask : SoftCause → Word
  | .stack => 0x0004#16
  | .overflow .a => 0x4010#16
  | .overflow .b => 0x2010#16
  | .catastrophic .a => 0x1010#16
  | .catastrophic .b => 0x0810#16
  | .shift => 0x0090#16
  | .divide => 0x0050#16

/-- The bits of INTCON1 that a list of causes sets. -/
def causesMask : List SoftCause → Word
  | [] => 0
  | c :: rest => causeMask c ||| causesMask rest

/-- Setting two bits one after the other sets both. -/
theorem or_bits (v a b m : Word) (h : a ||| b = m) : v ||| a ||| b = v ||| m := by rw [BitVec.or_assoc, h]

theorem State.raiseCause_eq (s : State) (c : SoftCause) :
    s.raiseCause c = { s with intcon1 := s.intcon1 ||| causeMask c } := by
  have h := fun a b m => or_bits s.intcon1 a b m
  cases c with
  | stack => rfl
  | overflow x => cases x <;> exact congrArg (fun v => { s with intcon1 := v }) (h _ _ _ rfl)
  | catastrophic x => cases x <;> exact congrArg (fun v => { s with intcon1 := v }) (h _ _ _ rfl)
  | shift => exact congrArg (fun v => { s with intcon1 := v }) (h _ _ _ rfl)
  | divide => exact congrArg (fun v => { s with intcon1 := v }) (h _ _ _ rfl)

/-- Raising causes sets their flags and changes nothing else. -/
theorem State.raiseCauses_eq : ∀ (cs : List SoftCause) (s : State),
    s.raiseCauses cs = { s with intcon1 := s.intcon1 ||| causesMask cs }
  | [], s => by simp [State.raiseCauses, causesMask]
  | c :: cs, s => by
    rw [State.raiseCauses, State.raiseCauses_eq cs, State.raiseCause_eq]
    simp only [causesMask, BitVec.or_assoc]

/-! ### Overflow flags -/

/-- The hardware write of OA or OB: that bit, and OAB as their OR. -/
theorem State.withAccOverflow_bits (s : State) (x : Acc) (b : Bool) :
    (s.withAccOverflow x b).accOverflowed x = b ∧
    (∀ i, i ≠ 11 → i ≠ (if x = .a then 15 else 14) → (s.withAccOverflow x b).sr.getLsbD i = s.sr.getLsbD i) ∧
    (s.withAccOverflow x b).sr.getLsbD 11 =
      ((s.withAccOverflow x b).sr.getLsbD 15 || (s.withAccOverflow x b).sr.getLsbD 14) := by
  unfold State.withAccOverflow State.accOverflowed
  cases x <;> dsimp only <;> simp only [getLsbD_setBitTo] <;> refine ⟨by simp, ?_, by simp⟩ <;> intro i h1 h2 <;>
    simp at h2 <;> rw [if_neg (by omega), if_neg (by omega)]

/-! ### The pc -/

/-- Below the top of program space the pc goes up by `k`. -/
theorem State.advance_pc_of_lt (s : State) {k : Nat} (h : s.pc.toNat + k < 0x800000) :
    (s.advance k).pc = s.pc + BitVec.ofNat 23 k := by
  rw [State.advance_eq, if_pos (show _ < Config.progSpace from h)]

/-! ### The instruction -/

/-- An instruction that raises no trap: everything is as stated. -/
theorem runCore_of_ok {s : State} {c k : Nat} {es : List CoreEffect} {r : CoreRun} (hr : runFrom s false es = r)
    (ha : r.addressError = false) (hc : r.causes = []) :
    runCore ⟨c, es, .fallThrough k⟩ s = .next (r.state.advance (2 * k)) := by
  unfold runCore State.branchBad
  simp only [hr, ha, hc]
  rfl

/-- An instruction that raises a soft trap: what it wrote is free, and the flag of every cause is set. -/
theorem runCore_of_trap {s : State} {c k : Nat} {es : List CoreEffect} {r : CoreRun} (hr : runFrom s false es = r)
    (ha : r.addressError = false) (hc : r.causes ≠ []) :
    runCore ⟨c, es, .fallThrough k⟩ s =
      .next (((({ s with draws := r.state.draws }).blurAll r.inhibited false r.writes).advance (2 * k)).raiseCauses
        r.causes) := by
  have he : r.causes.isEmpty = false := by simpa using hc
  unfold runCore State.branchBad
  simp only [hr, ha, he]
  rfl

end Sys2Proof.Machine
end

