-- ==== Sys2Proof/Laws/Fields.lean ====
section
/-! SUPPORT. The fields that each shared operation leaves alone, one lemma for each. -/

namespace Sys2Proof.Machine

variable (s : State)

@[simp] theorem State.checkSp_pc : (s.checkSp).pc = s.pc := by rw [State.checkSp_eq s]
@[simp] theorem State.checkSp_w : (s.checkSp).w = s.w := by rw [State.checkSp_eq s]
@[simp] theorem State.checkSp_sr : (s.checkSp).sr = s.sr := by rw [State.checkSp_eq s]
@[simp] theorem State.checkSp_corcon : (s.checkSp).corcon = s.corcon := by rw [State.checkSp_eq s]
@[simp] theorem State.checkSp_intcon2 : (s.checkSp).intcon2 = s.intcon2 := by rw [State.checkSp_eq s]
@[simp] theorem State.checkSp_ifs : (s.checkSp).ifs = s.ifs := by rw [State.checkSp_eq s]
@[simp] theorem State.checkSp_iec : (s.checkSp).iec = s.iec := by rw [State.checkSp_eq s]
@[simp] theorem State.checkSp_ipc : (s.checkSp).ipc = s.ipc := by rw [State.checkSp_eq s]
@[simp] theorem State.checkSp_inttreg : (s.checkSp).inttreg = s.inttreg := by rw [State.checkSp_eq s]
@[simp] theorem State.checkSp_disicnt : (s.checkSp).disicnt = s.disicnt := by rw [State.checkSp_eq s]
@[simp] theorem State.checkSp_splim : (s.checkSp).splim = s.splim := by rw [State.checkSp_eq s]
@[simp] theorem State.checkSp_trapr : (s.checkSp).trapr = s.trapr := by rw [State.checkSp_eq s]
@[simp] theorem State.checkSp_cf : (s.checkSp).cf = s.cf := by rw [State.checkSp_eq s]
@[simp] theorem State.checkSp_accA : (s.checkSp).accA = s.accA := by rw [State.checkSp_eq s]
@[simp] theorem State.checkSp_accB : (s.checkSp).accB = s.accB := by rw [State.checkSp_eq s]
@[simp] theorem State.checkSp_splimArmed : (s.checkSp).splimArmed = s.splimArmed := by rw [State.checkSp_eq s]
@[simp] theorem State.checkSp_pmode : (s.checkSp).pmode = s.pmode := by rw [State.checkSp_eq s]
@[simp] theorem State.checkSp_pin : (s.checkSp).pin = s.pin := by rw [State.checkSp_eq s]
@[simp] theorem State.checkSp_tempPc : (s.checkSp).tempPc = s.tempPc := by rw [State.checkSp_eq s]
@[simp] theorem State.checkSp_tempSrl : (s.checkSp).tempSrl = s.tempSrl := by rw [State.checkSp_eq s]
@[simp] theorem State.checkSp_irqSkid : (s.checkSp).irqSkid = s.irqSkid := by rw [State.checkSp_eq s]
@[simp] theorem State.checkSp_stkAge : (s.checkSp).stkAge = s.stkAge := by rw [State.checkSp_eq s]
@[simp] theorem State.checkSp_mathAge : (s.checkSp).mathAge = s.mathAge := by rw [State.checkSp_eq s]
@[simp] theorem State.checkSp_data : (s.checkSp).data = s.data := by rw [State.checkSp_eq s]
@[simp] theorem State.checkSp_prog : (s.checkSp).prog = s.prog := by rw [State.checkSp_eq s]
@[simp] theorem State.checkSp_inttregHold : (s.checkSp).inttregHold = s.inttregHold := by rw [State.checkSp_eq s]
@[simp] theorem State.checkSp_ipcStale : (s.checkSp).ipcStale = s.ipcStale := by rw [State.checkSp_eq s]
@[simp] theorem State.checkSp_conflictDue : (s.checkSp).conflictDue = s.conflictDue := by rw [State.checkSp_eq s]
@[simp] theorem State.checkSp_inputs : (s.checkSp).inputs = s.inputs := by rw [State.checkSp_eq s]
@[simp] theorem State.checkSp_draws : (s.checkSp).draws = s.draws := by rw [State.checkSp_eq s]
@[simp] theorem State.checkSp_device : (s.checkSp).device = s.device := by rw [State.checkSp_eq s]

@[simp] theorem State.setW_pc (d : BitVec 4) (v : Word) : (s.setW d v).pc = s.pc := by rw [State.setW_eq s d v]
@[simp] theorem State.setW_sr (d : BitVec 4) (v : Word) : (s.setW d v).sr = s.sr := by rw [State.setW_eq s d v]
@[simp] theorem State.setW_corcon (d : BitVec 4) (v : Word) : (s.setW d v).corcon = s.corcon :=
  by rw [State.setW_eq s d v]
@[simp] theorem State.setW_intcon1 (d : BitVec 4) (v : Word) : (s.setW d v).intcon1 = s.intcon1 :=
  by rw [State.setW_eq s d v]
@[simp] theorem State.setW_intcon2 (d : BitVec 4) (v : Word) : (s.setW d v).intcon2 = s.intcon2 :=
  by rw [State.setW_eq s d v]
@[simp] theorem State.setW_ifs (d : BitVec 4) (v : Word) : (s.setW d v).ifs = s.ifs := by rw [State.setW_eq s d v]
@[simp] theorem State.setW_iec (d : BitVec 4) (v : Word) : (s.setW d v).iec = s.iec := by rw [State.setW_eq s d v]
@[simp] theorem State.setW_ipc (d : BitVec 4) (v : Word) : (s.setW d v).ipc = s.ipc := by rw [State.setW_eq s d v]
@[simp] theorem State.setW_inttreg (d : BitVec 4) (v : Word) : (s.setW d v).inttreg = s.inttreg :=
  by rw [State.setW_eq s d v]
@[simp] theorem State.setW_disicnt (d : BitVec 4) (v : Word) : (s.setW d v).disicnt = s.disicnt :=
  by rw [State.setW_eq s d v]
@[simp] theorem State.setW_splim (d : BitVec 4) (v : Word) : (s.setW d v).splim = s.splim := by rw [State.setW_eq s d v]
@[simp] theorem State.setW_trapr (d : BitVec 4) (v : Word) : (s.setW d v).trapr = s.trapr := by rw [State.setW_eq s d v]
@[simp] theorem State.setW_cf (d : BitVec 4) (v : Word) : (s.setW d v).cf = s.cf := by rw [State.setW_eq s d v]
@[simp] theorem State.setW_accA (d : BitVec 4) (v : Word) : (s.setW d v).accA = s.accA := by rw [State.setW_eq s d v]
@[simp] theorem State.setW_accB (d : BitVec 4) (v : Word) : (s.setW d v).accB = s.accB := by rw [State.setW_eq s d v]
@[simp] theorem State.setW_splimArmed (d : BitVec 4) (v : Word) : (s.setW d v).splimArmed = s.splimArmed :=
  by rw [State.setW_eq s d v]
@[simp] theorem State.setW_pmode (d : BitVec 4) (v : Word) : (s.setW d v).pmode = s.pmode := by rw [State.setW_eq s d v]
@[simp] theorem State.setW_pin (d : BitVec 4) (v : Word) : (s.setW d v).pin = s.pin := by rw [State.setW_eq s d v]
@[simp] theorem State.setW_tempPc (d : BitVec 4) (v : Word) : (s.setW d v).tempPc = s.tempPc :=
  by rw [State.setW_eq s d v]
@[simp] theorem State.setW_tempSrl (d : BitVec 4) (v : Word) : (s.setW d v).tempSrl = s.tempSrl :=
  by rw [State.setW_eq s d v]
@[simp] theorem State.setW_irqSkid (d : BitVec 4) (v : Word) : (s.setW d v).irqSkid = s.irqSkid :=
  by rw [State.setW_eq s d v]
@[simp] theorem State.setW_stkAge (d : BitVec 4) (v : Word) : (s.setW d v).stkAge = s.stkAge :=
  by rw [State.setW_eq s d v]
@[simp] theorem State.setW_mathAge (d : BitVec 4) (v : Word) : (s.setW d v).mathAge = s.mathAge :=
  by rw [State.setW_eq s d v]
@[simp] theorem State.setW_data (d : BitVec 4) (v : Word) : (s.setW d v).data = s.data := by rw [State.setW_eq s d v]
@[simp] theorem State.setW_prog (d : BitVec 4) (v : Word) : (s.setW d v).prog = s.prog := by rw [State.setW_eq s d v]
@[simp] theorem State.setW_inttregHold (d : BitVec 4) (v : Word) : (s.setW d v).inttregHold = s.inttregHold :=
  by rw [State.setW_eq s d v]
@[simp] theorem State.setW_ipcStale (d : BitVec 4) (v : Word) : (s.setW d v).ipcStale = s.ipcStale :=
  by rw [State.setW_eq s d v]
@[simp] theorem State.setW_conflictDue (d : BitVec 4) (v : Word) : (s.setW d v).conflictDue = s.conflictDue :=
  by rw [State.setW_eq s d v]
@[simp] theorem State.setW_inputs (d : BitVec 4) (v : Word) : (s.setW d v).inputs = s.inputs :=
  by rw [State.setW_eq s d v]
@[simp] theorem State.setW_draws (d : BitVec 4) (v : Word) : (s.setW d v).draws = s.draws := by rw [State.setW_eq s d v]
@[simp] theorem State.setW_device (d : BitVec 4) (v : Word) : (s.setW d v).device = s.device :=
  by rw [State.setW_eq s d v]

@[simp] theorem State.loseSp_pc : (s.loseSp).pc = s.pc := by rw [State.loseSp_eq s]
@[simp] theorem State.loseSp_sr : (s.loseSp).sr = s.sr := by rw [State.loseSp_eq s]
@[simp] theorem State.loseSp_corcon : (s.loseSp).corcon = s.corcon := by rw [State.loseSp_eq s]
@[simp] theorem State.loseSp_intcon1 : (s.loseSp).intcon1 = s.intcon1 := by rw [State.loseSp_eq s]
@[simp] theorem State.loseSp_intcon2 : (s.loseSp).intcon2 = s.intcon2 := by rw [State.loseSp_eq s]
@[simp] theorem State.loseSp_ifs : (s.loseSp).ifs = s.ifs := by rw [State.loseSp_eq s]
@[simp] theorem State.loseSp_iec : (s.loseSp).iec = s.iec := by rw [State.loseSp_eq s]
@[simp] theorem State.loseSp_ipc : (s.loseSp).ipc = s.ipc := by rw [State.loseSp_eq s]
@[simp] theorem State.loseSp_inttreg : (s.loseSp).inttreg = s.inttreg := by rw [State.loseSp_eq s]
@[simp] theorem State.loseSp_disicnt : (s.loseSp).disicnt = s.disicnt := by rw [State.loseSp_eq s]
@[simp] theorem State.loseSp_splim : (s.loseSp).splim = s.splim := by rw [State.loseSp_eq s]
@[simp] theorem State.loseSp_trapr : (s.loseSp).trapr = s.trapr := by rw [State.loseSp_eq s]
@[simp] theorem State.loseSp_cf : (s.loseSp).cf = s.cf := by rw [State.loseSp_eq s]
@[simp] theorem State.loseSp_accA : (s.loseSp).accA = s.accA := by rw [State.loseSp_eq s]
@[simp] theorem State.loseSp_accB : (s.loseSp).accB = s.accB := by rw [State.loseSp_eq s]
@[simp] theorem State.loseSp_splimArmed : (s.loseSp).splimArmed = s.splimArmed := by rw [State.loseSp_eq s]
@[simp] theorem State.loseSp_pmode : (s.loseSp).pmode = s.pmode := by rw [State.loseSp_eq s]
@[simp] theorem State.loseSp_pin : (s.loseSp).pin = s.pin := by rw [State.loseSp_eq s]
@[simp] theorem State.loseSp_tempPc : (s.loseSp).tempPc = s.tempPc := by rw [State.loseSp_eq s]
@[simp] theorem State.loseSp_tempSrl : (s.loseSp).tempSrl = s.tempSrl := by rw [State.loseSp_eq s]
@[simp] theorem State.loseSp_irqSkid : (s.loseSp).irqSkid = s.irqSkid := by rw [State.loseSp_eq s]
@[simp] theorem State.loseSp_stkAge : (s.loseSp).stkAge = s.stkAge := by rw [State.loseSp_eq s]
@[simp] theorem State.loseSp_mathAge : (s.loseSp).mathAge = s.mathAge := by rw [State.loseSp_eq s]
@[simp] theorem State.loseSp_data : (s.loseSp).data = s.data := by rw [State.loseSp_eq s]
@[simp] theorem State.loseSp_prog : (s.loseSp).prog = s.prog := by rw [State.loseSp_eq s]
@[simp] theorem State.loseSp_inttregHold : (s.loseSp).inttregHold = s.inttregHold := by rw [State.loseSp_eq s]
@[simp] theorem State.loseSp_ipcStale : (s.loseSp).ipcStale = s.ipcStale := by rw [State.loseSp_eq s]
@[simp] theorem State.loseSp_conflictDue : (s.loseSp).conflictDue = s.conflictDue := by rw [State.loseSp_eq s]
@[simp] theorem State.loseSp_inputs : (s.loseSp).inputs = s.inputs := by rw [State.loseSp_eq s]
@[simp] theorem State.loseSp_device : (s.loseSp).device = s.device := by rw [State.loseSp_eq s]

@[simp] theorem State.settleSp_pc (b : Bool) : (s.settleSp b).pc = s.pc := by rw [State.settleSp_frame s b]
@[simp] theorem State.settleSp_sr (b : Bool) : (s.settleSp b).sr = s.sr := by rw [State.settleSp_frame s b]
@[simp] theorem State.settleSp_corcon (b : Bool) : (s.settleSp b).corcon = s.corcon := by rw [State.settleSp_frame s b]
@[simp] theorem State.settleSp_intcon2 (b : Bool) : (s.settleSp b).intcon2 = s.intcon2 :=
  by rw [State.settleSp_frame s b]
@[simp] theorem State.settleSp_ifs (b : Bool) : (s.settleSp b).ifs = s.ifs := by rw [State.settleSp_frame s b]
@[simp] theorem State.settleSp_iec (b : Bool) : (s.settleSp b).iec = s.iec := by rw [State.settleSp_frame s b]
@[simp] theorem State.settleSp_ipc (b : Bool) : (s.settleSp b).ipc = s.ipc := by rw [State.settleSp_frame s b]
@[simp] theorem State.settleSp_inttreg (b : Bool) : (s.settleSp b).inttreg = s.inttreg :=
  by rw [State.settleSp_frame s b]
@[simp] theorem State.settleSp_disicnt (b : Bool) : (s.settleSp b).disicnt = s.disicnt :=
  by rw [State.settleSp_frame s b]
@[simp] theorem State.settleSp_splim (b : Bool) : (s.settleSp b).splim = s.splim := by rw [State.settleSp_frame s b]
@[simp] theorem State.settleSp_trapr (b : Bool) : (s.settleSp b).trapr = s.trapr := by rw [State.settleSp_frame s b]
@[simp] theorem State.settleSp_cf (b : Bool) : (s.settleSp b).cf = s.cf := by rw [State.settleSp_frame s b]
@[simp] theorem State.settleSp_accA (b : Bool) : (s.settleSp b).accA = s.accA := by rw [State.settleSp_frame s b]
@[simp] theorem State.settleSp_accB (b : Bool) : (s.settleSp b).accB = s.accB := by rw [State.settleSp_frame s b]
@[simp] theorem State.settleSp_splimArmed (b : Bool) : (s.settleSp b).splimArmed = s.splimArmed :=
  by rw [State.settleSp_frame s b]
@[simp] theorem State.settleSp_pmode (b : Bool) : (s.settleSp b).pmode = s.pmode := by rw [State.settleSp_frame s b]
@[simp] theorem State.settleSp_pin (b : Bool) : (s.settleSp b).pin = s.pin := by rw [State.settleSp_frame s b]
@[simp] theorem State.settleSp_tempPc (b : Bool) : (s.settleSp b).tempPc = s.tempPc := by rw [State.settleSp_frame s b]
@[simp] theorem State.settleSp_tempSrl (b : Bool) : (s.settleSp b).tempSrl = s.tempSrl :=
  by rw [State.settleSp_frame s b]
@[simp] theorem State.settleSp_irqSkid (b : Bool) : (s.settleSp b).irqSkid = s.irqSkid :=
  by rw [State.settleSp_frame s b]
@[simp] theorem State.settleSp_stkAge (b : Bool) : (s.settleSp b).stkAge = s.stkAge := by rw [State.settleSp_frame s b]
@[simp] theorem State.settleSp_mathAge (b : Bool) : (s.settleSp b).mathAge = s.mathAge :=
  by rw [State.settleSp_frame s b]
@[simp] theorem State.settleSp_data (b : Bool) : (s.settleSp b).data = s.data := by rw [State.settleSp_frame s b]
@[simp] theorem State.settleSp_prog (b : Bool) : (s.settleSp b).prog = s.prog := by rw [State.settleSp_frame s b]
@[simp] theorem State.settleSp_inttregHold (b : Bool) : (s.settleSp b).inttregHold = s.inttregHold :=
  by rw [State.settleSp_frame s b]
@[simp] theorem State.settleSp_ipcStale (b : Bool) : (s.settleSp b).ipcStale = s.ipcStale :=
  by rw [State.settleSp_frame s b]
@[simp] theorem State.settleSp_conflictDue (b : Bool) : (s.settleSp b).conflictDue = s.conflictDue :=
  by rw [State.settleSp_frame s b]
@[simp] theorem State.settleSp_inputs (b : Bool) : (s.settleSp b).inputs = s.inputs := by rw [State.settleSp_frame s b]
@[simp] theorem State.settleSp_device (b : Bool) : (s.settleSp b).device = s.device := by rw [State.settleSp_frame s b]

@[simp] theorem State.advance_w (k : Nat) : (s.advance k).w = s.w := by rw [State.advance_frame s k]
@[simp] theorem State.advance_sr (k : Nat) : (s.advance k).sr = s.sr := by rw [State.advance_frame s k]
@[simp] theorem State.advance_corcon (k : Nat) : (s.advance k).corcon = s.corcon := by rw [State.advance_frame s k]
@[simp] theorem State.advance_intcon1 (k : Nat) : (s.advance k).intcon1 = s.intcon1 := by rw [State.advance_frame s k]
@[simp] theorem State.advance_intcon2 (k : Nat) : (s.advance k).intcon2 = s.intcon2 := by rw [State.advance_frame s k]
@[simp] theorem State.advance_ifs (k : Nat) : (s.advance k).ifs = s.ifs := by rw [State.advance_frame s k]
@[simp] theorem State.advance_iec (k : Nat) : (s.advance k).iec = s.iec := by rw [State.advance_frame s k]
@[simp] theorem State.advance_ipc (k : Nat) : (s.advance k).ipc = s.ipc := by rw [State.advance_frame s k]
@[simp] theorem State.advance_inttreg (k : Nat) : (s.advance k).inttreg = s.inttreg := by rw [State.advance_frame s k]
@[simp] theorem State.advance_disicnt (k : Nat) : (s.advance k).disicnt = s.disicnt := by rw [State.advance_frame s k]
@[simp] theorem State.advance_splim (k : Nat) : (s.advance k).splim = s.splim := by rw [State.advance_frame s k]
@[simp] theorem State.advance_trapr (k : Nat) : (s.advance k).trapr = s.trapr := by rw [State.advance_frame s k]
@[simp] theorem State.advance_cf (k : Nat) : (s.advance k).cf = s.cf := by rw [State.advance_frame s k]
@[simp] theorem State.advance_accA (k : Nat) : (s.advance k).accA = s.accA := by rw [State.advance_frame s k]
@[simp] theorem State.advance_accB (k : Nat) : (s.advance k).accB = s.accB := by rw [State.advance_frame s k]
@[simp] theorem State.advance_splimArmed (k : Nat) : (s.advance k).splimArmed = s.splimArmed :=
  by rw [State.advance_frame s k]
@[simp] theorem State.advance_pmode (k : Nat) : (s.advance k).pmode = s.pmode := by rw [State.advance_frame s k]
@[simp] theorem State.advance_pin (k : Nat) : (s.advance k).pin = s.pin := by rw [State.advance_frame s k]
@[simp] theorem State.advance_tempPc (k : Nat) : (s.advance k).tempPc = s.tempPc := by rw [State.advance_frame s k]
@[simp] theorem State.advance_tempSrl (k : Nat) : (s.advance k).tempSrl = s.tempSrl := by rw [State.advance_frame s k]
@[simp] theorem State.advance_irqSkid (k : Nat) : (s.advance k).irqSkid = s.irqSkid := by rw [State.advance_frame s k]
@[simp] theorem State.advance_stkAge (k : Nat) : (s.advance k).stkAge = s.stkAge := by rw [State.advance_frame s k]
@[simp] theorem State.advance_mathAge (k : Nat) : (s.advance k).mathAge = s.mathAge := by rw [State.advance_frame s k]
@[simp] theorem State.advance_data (k : Nat) : (s.advance k).data = s.data := by rw [State.advance_frame s k]
@[simp] theorem State.advance_prog (k : Nat) : (s.advance k).prog = s.prog := by rw [State.advance_frame s k]
@[simp] theorem State.advance_inttregHold (k : Nat) : (s.advance k).inttregHold = s.inttregHold :=
  by rw [State.advance_frame s k]
@[simp] theorem State.advance_ipcStale (k : Nat) : (s.advance k).ipcStale = s.ipcStale :=
  by rw [State.advance_frame s k]
@[simp] theorem State.advance_conflictDue (k : Nat) : (s.advance k).conflictDue = s.conflictDue :=
  by rw [State.advance_frame s k]
@[simp] theorem State.advance_inputs (k : Nat) : (s.advance k).inputs = s.inputs := by rw [State.advance_frame s k]
@[simp] theorem State.advance_device (k : Nat) : (s.advance k).device = s.device := by rw [State.advance_frame s k]

@[simp] theorem State.countDown_pc : (s.countDown).pc = s.pc := by rw [State.countDown_eq s]
@[simp] theorem State.countDown_w : (s.countDown).w = s.w := by rw [State.countDown_eq s]
@[simp] theorem State.countDown_sr : (s.countDown).sr = s.sr := by rw [State.countDown_eq s]
@[simp] theorem State.countDown_corcon : (s.countDown).corcon = s.corcon := by rw [State.countDown_eq s]
@[simp] theorem State.countDown_intcon1 : (s.countDown).intcon1 = s.intcon1 := by rw [State.countDown_eq s]
@[simp] theorem State.countDown_ifs : (s.countDown).ifs = s.ifs := by rw [State.countDown_eq s]
@[simp] theorem State.countDown_iec : (s.countDown).iec = s.iec := by rw [State.countDown_eq s]
@[simp] theorem State.countDown_ipc : (s.countDown).ipc = s.ipc := by rw [State.countDown_eq s]
@[simp] theorem State.countDown_inttreg : (s.countDown).inttreg = s.inttreg := by rw [State.countDown_eq s]
@[simp] theorem State.countDown_splim : (s.countDown).splim = s.splim := by rw [State.countDown_eq s]
@[simp] theorem State.countDown_trapr : (s.countDown).trapr = s.trapr := by rw [State.countDown_eq s]
@[simp] theorem State.countDown_cf : (s.countDown).cf = s.cf := by rw [State.countDown_eq s]
@[simp] theorem State.countDown_accA : (s.countDown).accA = s.accA := by rw [State.countDown_eq s]
@[simp] theorem State.countDown_accB : (s.countDown).accB = s.accB := by rw [State.countDown_eq s]
@[simp] theorem State.countDown_splimArmed : (s.countDown).splimArmed = s.splimArmed := by rw [State.countDown_eq s]
@[simp] theorem State.countDown_pmode : (s.countDown).pmode = s.pmode := by rw [State.countDown_eq s]
@[simp] theorem State.countDown_pin : (s.countDown).pin = s.pin := by rw [State.countDown_eq s]
@[simp] theorem State.countDown_tempPc : (s.countDown).tempPc = s.tempPc := by rw [State.countDown_eq s]
@[simp] theorem State.countDown_tempSrl : (s.countDown).tempSrl = s.tempSrl := by rw [State.countDown_eq s]
@[simp] theorem State.countDown_irqSkid : (s.countDown).irqSkid = s.irqSkid := by rw [State.countDown_eq s]
@[simp] theorem State.countDown_stkAge : (s.countDown).stkAge = s.stkAge := by rw [State.countDown_eq s]
@[simp] theorem State.countDown_mathAge : (s.countDown).mathAge = s.mathAge := by rw [State.countDown_eq s]
@[simp] theorem State.countDown_data : (s.countDown).data = s.data := by rw [State.countDown_eq s]
@[simp] theorem State.countDown_prog : (s.countDown).prog = s.prog := by rw [State.countDown_eq s]
@[simp] theorem State.countDown_inttregHold : (s.countDown).inttregHold = s.inttregHold := by rw [State.countDown_eq s]
@[simp] theorem State.countDown_ipcStale : (s.countDown).ipcStale = s.ipcStale := by rw [State.countDown_eq s]
@[simp] theorem State.countDown_conflictDue : (s.countDown).conflictDue = s.conflictDue := by rw [State.countDown_eq s]
@[simp] theorem State.countDown_inputs : (s.countDown).inputs = s.inputs := by rw [State.countDown_eq s]
@[simp] theorem State.countDown_draws : (s.countDown).draws = s.draws := by rw [State.countDown_eq s]
@[simp] theorem State.countDown_device : (s.countDown).device = s.device := by rw [State.countDown_eq s]

@[simp] theorem State.tick_pc : (s.tick).pc = s.pc := by rw [State.tick_eq s]
@[simp] theorem State.tick_w : (s.tick).w = s.w := by rw [State.tick_eq s]
@[simp] theorem State.tick_sr : (s.tick).sr = s.sr := by rw [State.tick_eq s]
@[simp] theorem State.tick_corcon : (s.tick).corcon = s.corcon := by rw [State.tick_eq s]
@[simp] theorem State.tick_intcon1 : (s.tick).intcon1 = s.intcon1 := by rw [State.tick_eq s]
@[simp] theorem State.tick_ifs : (s.tick).ifs = s.ifs := by rw [State.tick_eq s]
@[simp] theorem State.tick_iec : (s.tick).iec = s.iec := by rw [State.tick_eq s]
@[simp] theorem State.tick_ipc : (s.tick).ipc = s.ipc := by rw [State.tick_eq s]
@[simp] theorem State.tick_inttreg : (s.tick).inttreg = s.inttreg := by rw [State.tick_eq s]
@[simp] theorem State.tick_splim : (s.tick).splim = s.splim := by rw [State.tick_eq s]
@[simp] theorem State.tick_trapr : (s.tick).trapr = s.trapr := by rw [State.tick_eq s]
@[simp] theorem State.tick_cf : (s.tick).cf = s.cf := by rw [State.tick_eq s]
@[simp] theorem State.tick_accA : (s.tick).accA = s.accA := by rw [State.tick_eq s]
@[simp] theorem State.tick_accB : (s.tick).accB = s.accB := by rw [State.tick_eq s]
@[simp] theorem State.tick_splimArmed : (s.tick).splimArmed = s.splimArmed := by rw [State.tick_eq s]
@[simp] theorem State.tick_pmode : (s.tick).pmode = s.pmode := by rw [State.tick_eq s]
@[simp] theorem State.tick_pin : (s.tick).pin = s.pin := by rw [State.tick_eq s]
@[simp] theorem State.tick_tempPc : (s.tick).tempPc = s.tempPc := by rw [State.tick_eq s]
@[simp] theorem State.tick_tempSrl : (s.tick).tempSrl = s.tempSrl := by rw [State.tick_eq s]
@[simp] theorem State.tick_irqSkid : (s.tick).irqSkid = s.irqSkid := by rw [State.tick_eq s]
@[simp] theorem State.tick_data : (s.tick).data = s.data := by rw [State.tick_eq s]
@[simp] theorem State.tick_prog : (s.tick).prog = s.prog := by rw [State.tick_eq s]
@[simp] theorem State.tick_inttregHold : (s.tick).inttregHold = s.inttregHold := by rw [State.tick_eq s]
@[simp] theorem State.tick_ipcStale : (s.tick).ipcStale = s.ipcStale := by rw [State.tick_eq s]
@[simp] theorem State.tick_conflictDue : (s.tick).conflictDue = s.conflictDue := by rw [State.tick_eq s]
@[simp] theorem State.tick_inputs : (s.tick).inputs = s.inputs := by rw [State.tick_eq s]
@[simp] theorem State.tick_draws : (s.tick).draws = s.draws := by rw [State.tick_eq s]
@[simp] theorem State.tick_device : (s.tick).device = s.device := by rw [State.tick_eq s]

@[simp] theorem State.ticks_pc (n : Nat) : (s.ticks n).pc = s.pc := by rw [State.ticks_frame n s]
@[simp] theorem State.ticks_w (n : Nat) : (s.ticks n).w = s.w := by rw [State.ticks_frame n s]
@[simp] theorem State.ticks_sr (n : Nat) : (s.ticks n).sr = s.sr := by rw [State.ticks_frame n s]
@[simp] theorem State.ticks_corcon (n : Nat) : (s.ticks n).corcon = s.corcon := by rw [State.ticks_frame n s]
@[simp] theorem State.ticks_intcon1 (n : Nat) : (s.ticks n).intcon1 = s.intcon1 := by rw [State.ticks_frame n s]
@[simp] theorem State.ticks_ifs (n : Nat) : (s.ticks n).ifs = s.ifs := by rw [State.ticks_frame n s]
@[simp] theorem State.ticks_iec (n : Nat) : (s.ticks n).iec = s.iec := by rw [State.ticks_frame n s]
@[simp] theorem State.ticks_ipc (n : Nat) : (s.ticks n).ipc = s.ipc := by rw [State.ticks_frame n s]
@[simp] theorem State.ticks_inttreg (n : Nat) : (s.ticks n).inttreg = s.inttreg := by rw [State.ticks_frame n s]
@[simp] theorem State.ticks_splim (n : Nat) : (s.ticks n).splim = s.splim := by rw [State.ticks_frame n s]
@[simp] theorem State.ticks_trapr (n : Nat) : (s.ticks n).trapr = s.trapr := by rw [State.ticks_frame n s]
@[simp] theorem State.ticks_cf (n : Nat) : (s.ticks n).cf = s.cf := by rw [State.ticks_frame n s]
@[simp] theorem State.ticks_accA (n : Nat) : (s.ticks n).accA = s.accA := by rw [State.ticks_frame n s]
@[simp] theorem State.ticks_accB (n : Nat) : (s.ticks n).accB = s.accB := by rw [State.ticks_frame n s]
@[simp] theorem State.ticks_splimArmed (n : Nat) : (s.ticks n).splimArmed = s.splimArmed :=
  by rw [State.ticks_frame n s]
@[simp] theorem State.ticks_pmode (n : Nat) : (s.ticks n).pmode = s.pmode := by rw [State.ticks_frame n s]
@[simp] theorem State.ticks_pin (n : Nat) : (s.ticks n).pin = s.pin := by rw [State.ticks_frame n s]
@[simp] theorem State.ticks_tempPc (n : Nat) : (s.ticks n).tempPc = s.tempPc := by rw [State.ticks_frame n s]
@[simp] theorem State.ticks_tempSrl (n : Nat) : (s.ticks n).tempSrl = s.tempSrl := by rw [State.ticks_frame n s]
@[simp] theorem State.ticks_irqSkid (n : Nat) : (s.ticks n).irqSkid = s.irqSkid := by rw [State.ticks_frame n s]
@[simp] theorem State.ticks_data (n : Nat) : (s.ticks n).data = s.data := by rw [State.ticks_frame n s]
@[simp] theorem State.ticks_prog (n : Nat) : (s.ticks n).prog = s.prog := by rw [State.ticks_frame n s]
@[simp] theorem State.ticks_inttregHold (n : Nat) : (s.ticks n).inttregHold = s.inttregHold :=
  by rw [State.ticks_frame n s]
@[simp] theorem State.ticks_ipcStale (n : Nat) : (s.ticks n).ipcStale = s.ipcStale := by rw [State.ticks_frame n s]
@[simp] theorem State.ticks_conflictDue (n : Nat) : (s.ticks n).conflictDue = s.conflictDue :=
  by rw [State.ticks_frame n s]
@[simp] theorem State.ticks_inputs (n : Nat) : (s.ticks n).inputs = s.inputs := by rw [State.ticks_frame n s]
@[simp] theorem State.ticks_draws (n : Nat) : (s.ticks n).draws = s.draws := by rw [State.ticks_frame n s]
@[simp] theorem State.ticks_device (n : Nat) : (s.ticks n).device = s.device := by rw [State.ticks_frame n s]

@[simp] theorem State.setIrqFlag_pc (n : Nat) : (s.setIrqFlag n).pc = s.pc := by rw [State.setIrqFlag_frame s n]
@[simp] theorem State.setIrqFlag_w (n : Nat) : (s.setIrqFlag n).w = s.w := by rw [State.setIrqFlag_frame s n]
@[simp] theorem State.setIrqFlag_sr (n : Nat) : (s.setIrqFlag n).sr = s.sr := by rw [State.setIrqFlag_frame s n]
@[simp] theorem State.setIrqFlag_corcon (n : Nat) : (s.setIrqFlag n).corcon = s.corcon :=
  by rw [State.setIrqFlag_frame s n]
@[simp] theorem State.setIrqFlag_intcon1 (n : Nat) : (s.setIrqFlag n).intcon1 = s.intcon1 :=
  by rw [State.setIrqFlag_frame s n]
@[simp] theorem State.setIrqFlag_intcon2 (n : Nat) : (s.setIrqFlag n).intcon2 = s.intcon2 :=
  by rw [State.setIrqFlag_frame s n]
@[simp] theorem State.setIrqFlag_iec (n : Nat) : (s.setIrqFlag n).iec = s.iec := by rw [State.setIrqFlag_frame s n]
@[simp] theorem State.setIrqFlag_ipc (n : Nat) : (s.setIrqFlag n).ipc = s.ipc := by rw [State.setIrqFlag_frame s n]
@[simp] theorem State.setIrqFlag_inttreg (n : Nat) : (s.setIrqFlag n).inttreg = s.inttreg :=
  by rw [State.setIrqFlag_frame s n]
@[simp] theorem State.setIrqFlag_disicnt (n : Nat) : (s.setIrqFlag n).disicnt = s.disicnt :=
  by rw [State.setIrqFlag_frame s n]
@[simp] theorem State.setIrqFlag_splim (n : Nat) : (s.setIrqFlag n).splim = s.splim :=
  by rw [State.setIrqFlag_frame s n]
@[simp] theorem State.setIrqFlag_trapr (n : Nat) : (s.setIrqFlag n).trapr = s.trapr :=
  by rw [State.setIrqFlag_frame s n]
@[simp] theorem State.setIrqFlag_cf (n : Nat) : (s.setIrqFlag n).cf = s.cf := by rw [State.setIrqFlag_frame s n]
@[simp] theorem State.setIrqFlag_accA (n : Nat) : (s.setIrqFlag n).accA = s.accA := by rw [State.setIrqFlag_frame s n]
@[simp] theorem State.setIrqFlag_accB (n : Nat) : (s.setIrqFlag n).accB = s.accB := by rw [State.setIrqFlag_frame s n]
@[simp] theorem State.setIrqFlag_splimArmed (n : Nat) : (s.setIrqFlag n).splimArmed = s.splimArmed :=
  by rw [State.setIrqFlag_frame s n]
@[simp] theorem State.setIrqFlag_pmode (n : Nat) : (s.setIrqFlag n).pmode = s.pmode :=
  by rw [State.setIrqFlag_frame s n]
@[simp] theorem State.setIrqFlag_pin (n : Nat) : (s.setIrqFlag n).pin = s.pin := by rw [State.setIrqFlag_frame s n]
@[simp] theorem State.setIrqFlag_tempPc (n : Nat) : (s.setIrqFlag n).tempPc = s.tempPc :=
  by rw [State.setIrqFlag_frame s n]
@[simp] theorem State.setIrqFlag_tempSrl (n : Nat) : (s.setIrqFlag n).tempSrl = s.tempSrl :=
  by rw [State.setIrqFlag_frame s n]
@[simp] theorem State.setIrqFlag_irqSkid (n : Nat) : (s.setIrqFlag n).irqSkid = s.irqSkid :=
  by rw [State.setIrqFlag_frame s n]
@[simp] theorem State.setIrqFlag_stkAge (n : Nat) : (s.setIrqFlag n).stkAge = s.stkAge :=
  by rw [State.setIrqFlag_frame s n]
@[simp] theorem State.setIrqFlag_mathAge (n : Nat) : (s.setIrqFlag n).mathAge = s.mathAge :=
  by rw [State.setIrqFlag_frame s n]
@[simp] theorem State.setIrqFlag_data (n : Nat) : (s.setIrqFlag n).data = s.data := by rw [State.setIrqFlag_frame s n]
@[simp] theorem State.setIrqFlag_prog (n : Nat) : (s.setIrqFlag n).prog = s.prog := by rw [State.setIrqFlag_frame s n]
@[simp] theorem State.setIrqFlag_inttregHold (n : Nat) : (s.setIrqFlag n).inttregHold = s.inttregHold :=
  by rw [State.setIrqFlag_frame s n]
@[simp] theorem State.setIrqFlag_ipcStale (n : Nat) : (s.setIrqFlag n).ipcStale = s.ipcStale :=
  by rw [State.setIrqFlag_frame s n]
@[simp] theorem State.setIrqFlag_conflictDue (n : Nat) : (s.setIrqFlag n).conflictDue = s.conflictDue :=
  by rw [State.setIrqFlag_frame s n]
@[simp] theorem State.setIrqFlag_inputs (n : Nat) : (s.setIrqFlag n).inputs = s.inputs :=
  by rw [State.setIrqFlag_frame s n]
@[simp] theorem State.setIrqFlag_draws (n : Nat) : (s.setIrqFlag n).draws = s.draws :=
  by rw [State.setIrqFlag_frame s n]
@[simp] theorem State.setIrqFlag_device (n : Nat) : (s.setIrqFlag n).device = s.device :=
  by rw [State.setIrqFlag_frame s n]

@[simp] theorem State.writeDisicnt_pc (v : Word) : (s.writeDisicnt v).pc = s.pc := by rw [State.writeDisicnt_frame s v]
@[simp] theorem State.writeDisicnt_w (v : Word) : (s.writeDisicnt v).w = s.w := by rw [State.writeDisicnt_frame s v]
@[simp] theorem State.writeDisicnt_sr (v : Word) : (s.writeDisicnt v).sr = s.sr := by rw [State.writeDisicnt_frame s v]
@[simp] theorem State.writeDisicnt_corcon (v : Word) : (s.writeDisicnt v).corcon = s.corcon :=
  by rw [State.writeDisicnt_frame s v]
@[simp] theorem State.writeDisicnt_intcon1 (v : Word) : (s.writeDisicnt v).intcon1 = s.intcon1 :=
  by rw [State.writeDisicnt_frame s v]
@[simp] theorem State.writeDisicnt_ifs (v : Word) : (s.writeDisicnt v).ifs = s.ifs :=
  by rw [State.writeDisicnt_frame s v]
@[simp] theorem State.writeDisicnt_iec (v : Word) : (s.writeDisicnt v).iec = s.iec :=
  by rw [State.writeDisicnt_frame s v]
@[simp] theorem State.writeDisicnt_ipc (v : Word) : (s.writeDisicnt v).ipc = s.ipc :=
  by rw [State.writeDisicnt_frame s v]
@[simp] theorem State.writeDisicnt_inttreg (v : Word) : (s.writeDisicnt v).inttreg = s.inttreg :=
  by rw [State.writeDisicnt_frame s v]
@[simp] theorem State.writeDisicnt_splim (v : Word) : (s.writeDisicnt v).splim = s.splim :=
  by rw [State.writeDisicnt_frame s v]
@[simp] theorem State.writeDisicnt_trapr (v : Word) : (s.writeDisicnt v).trapr = s.trapr :=
  by rw [State.writeDisicnt_frame s v]
@[simp] theorem State.writeDisicnt_cf (v : Word) : (s.writeDisicnt v).cf = s.cf := by rw [State.writeDisicnt_frame s v]
@[simp] theorem State.writeDisicnt_accA (v : Word) : (s.writeDisicnt v).accA = s.accA :=
  by rw [State.writeDisicnt_frame s v]
@[simp] theorem State.writeDisicnt_accB (v : Word) : (s.writeDisicnt v).accB = s.accB :=
  by rw [State.writeDisicnt_frame s v]
@[simp] theorem State.writeDisicnt_splimArmed (v : Word) : (s.writeDisicnt v).splimArmed = s.splimArmed :=
  by rw [State.writeDisicnt_frame s v]
@[simp] theorem State.writeDisicnt_pmode (v : Word) : (s.writeDisicnt v).pmode = s.pmode :=
  by rw [State.writeDisicnt_frame s v]
@[simp] theorem State.writeDisicnt_pin (v : Word) : (s.writeDisicnt v).pin = s.pin :=
  by rw [State.writeDisicnt_frame s v]
@[simp] theorem State.writeDisicnt_tempPc (v : Word) : (s.writeDisicnt v).tempPc = s.tempPc :=
  by rw [State.writeDisicnt_frame s v]
@[simp] theorem State.writeDisicnt_tempSrl (v : Word) : (s.writeDisicnt v).tempSrl = s.tempSrl :=
  by rw [State.writeDisicnt_frame s v]
@[simp] theorem State.writeDisicnt_irqSkid (v : Word) : (s.writeDisicnt v).irqSkid = s.irqSkid :=
  by rw [State.writeDisicnt_frame s v]
@[simp] theorem State.writeDisicnt_stkAge (v : Word) : (s.writeDisicnt v).stkAge = s.stkAge :=
  by rw [State.writeDisicnt_frame s v]
@[simp] theorem State.writeDisicnt_mathAge (v : Word) : (s.writeDisicnt v).mathAge = s.mathAge :=
  by rw [State.writeDisicnt_frame s v]
@[simp] theorem State.writeDisicnt_data (v : Word) : (s.writeDisicnt v).data = s.data :=
  by rw [State.writeDisicnt_frame s v]
@[simp] theorem State.writeDisicnt_prog (v : Word) : (s.writeDisicnt v).prog = s.prog :=
  by rw [State.writeDisicnt_frame s v]
@[simp] theorem State.writeDisicnt_inttregHold (v : Word) : (s.writeDisicnt v).inttregHold = s.inttregHold :=
  by rw [State.writeDisicnt_frame s v]
@[simp] theorem State.writeDisicnt_ipcStale (v : Word) : (s.writeDisicnt v).ipcStale = s.ipcStale :=
  by rw [State.writeDisicnt_frame s v]
@[simp] theorem State.writeDisicnt_conflictDue (v : Word) : (s.writeDisicnt v).conflictDue = s.conflictDue :=
  by rw [State.writeDisicnt_frame s v]
@[simp] theorem State.writeDisicnt_inputs (v : Word) : (s.writeDisicnt v).inputs = s.inputs :=
  by rw [State.writeDisicnt_frame s v]
@[simp] theorem State.writeDisicnt_device (v : Word) : (s.writeDisicnt v).device = s.device :=
  by rw [State.writeDisicnt_frame s v]

@[simp] theorem State.enterLevel_pc (l : Nat) : (s.enterLevel l).pc = s.pc := by rw [State.enterLevel_frame s l]
@[simp] theorem State.enterLevel_w (l : Nat) : (s.enterLevel l).w = s.w := by rw [State.enterLevel_frame s l]
@[simp] theorem State.enterLevel_intcon1 (l : Nat) : (s.enterLevel l).intcon1 = s.intcon1 :=
  by rw [State.enterLevel_frame s l]
@[simp] theorem State.enterLevel_intcon2 (l : Nat) : (s.enterLevel l).intcon2 = s.intcon2 :=
  by rw [State.enterLevel_frame s l]
@[simp] theorem State.enterLevel_ifs (l : Nat) : (s.enterLevel l).ifs = s.ifs := by rw [State.enterLevel_frame s l]
@[simp] theorem State.enterLevel_iec (l : Nat) : (s.enterLevel l).iec = s.iec := by rw [State.enterLevel_frame s l]
@[simp] theorem State.enterLevel_ipc (l : Nat) : (s.enterLevel l).ipc = s.ipc := by rw [State.enterLevel_frame s l]
@[simp] theorem State.enterLevel_inttreg (l : Nat) : (s.enterLevel l).inttreg = s.inttreg :=
  by rw [State.enterLevel_frame s l]
@[simp] theorem State.enterLevel_disicnt (l : Nat) : (s.enterLevel l).disicnt = s.disicnt :=
  by rw [State.enterLevel_frame s l]
@[simp] theorem State.enterLevel_splim (l : Nat) : (s.enterLevel l).splim = s.splim :=
  by rw [State.enterLevel_frame s l]
@[simp] theorem State.enterLevel_trapr (l : Nat) : (s.enterLevel l).trapr = s.trapr :=
  by rw [State.enterLevel_frame s l]
@[simp] theorem State.enterLevel_cf (l : Nat) : (s.enterLevel l).cf = s.cf := by rw [State.enterLevel_frame s l]
@[simp] theorem State.enterLevel_accA (l : Nat) : (s.enterLevel l).accA = s.accA := by rw [State.enterLevel_frame s l]
@[simp] theorem State.enterLevel_accB (l : Nat) : (s.enterLevel l).accB = s.accB := by rw [State.enterLevel_frame s l]
@[simp] theorem State.enterLevel_splimArmed (l : Nat) : (s.enterLevel l).splimArmed = s.splimArmed :=
  by rw [State.enterLevel_frame s l]
@[simp] theorem State.enterLevel_pmode (l : Nat) : (s.enterLevel l).pmode = s.pmode :=
  by rw [State.enterLevel_frame s l]
@[simp] theorem State.enterLevel_pin (l : Nat) : (s.enterLevel l).pin = s.pin := by rw [State.enterLevel_frame s l]
@[simp] theorem State.enterLevel_tempPc (l : Nat) : (s.enterLevel l).tempPc = s.tempPc :=
  by rw [State.enterLevel_frame s l]
@[simp] theorem State.enterLevel_tempSrl (l : Nat) : (s.enterLevel l).tempSrl = s.tempSrl :=
  by rw [State.enterLevel_frame s l]
@[simp] theorem State.enterLevel_irqSkid (l : Nat) : (s.enterLevel l).irqSkid = s.irqSkid :=
  by rw [State.enterLevel_frame s l]
@[simp] theorem State.enterLevel_stkAge (l : Nat) : (s.enterLevel l).stkAge = s.stkAge :=
  by rw [State.enterLevel_frame s l]
@[simp] theorem State.enterLevel_mathAge (l : Nat) : (s.enterLevel l).mathAge = s.mathAge :=
  by rw [State.enterLevel_frame s l]
@[simp] theorem State.enterLevel_data (l : Nat) : (s.enterLevel l).data = s.data := by rw [State.enterLevel_frame s l]
@[simp] theorem State.enterLevel_prog (l : Nat) : (s.enterLevel l).prog = s.prog := by rw [State.enterLevel_frame s l]
@[simp] theorem State.enterLevel_inttregHold (l : Nat) : (s.enterLevel l).inttregHold = s.inttregHold :=
  by rw [State.enterLevel_frame s l]
@[simp] theorem State.enterLevel_ipcStale (l : Nat) : (s.enterLevel l).ipcStale = s.ipcStale :=
  by rw [State.enterLevel_frame s l]
@[simp] theorem State.enterLevel_conflictDue (l : Nat) : (s.enterLevel l).conflictDue = s.conflictDue :=
  by rw [State.enterLevel_frame s l]
@[simp] theorem State.enterLevel_inputs (l : Nat) : (s.enterLevel l).inputs = s.inputs :=
  by rw [State.enterLevel_frame s l]
@[simp] theorem State.enterLevel_draws (l : Nat) : (s.enterLevel l).draws = s.draws :=
  by rw [State.enterLevel_frame s l]
@[simp] theorem State.enterLevel_device (l : Nat) : (s.enterLevel l).device = s.device :=
  by rw [State.enterLevel_frame s l]

@[simp] theorem State.latchInttreg_pc (v l : Nat) : (s.latchInttreg v l).pc = s.pc :=
  by rw [State.latchInttreg_frame s v l]
@[simp] theorem State.latchInttreg_w (v l : Nat) : (s.latchInttreg v l).w = s.w :=
  by rw [State.latchInttreg_frame s v l]
@[simp] theorem State.latchInttreg_sr (v l : Nat) : (s.latchInttreg v l).sr = s.sr :=
  by rw [State.latchInttreg_frame s v l]
@[simp] theorem State.latchInttreg_corcon (v l : Nat) : (s.latchInttreg v l).corcon = s.corcon :=
  by rw [State.latchInttreg_frame s v l]
@[simp] theorem State.latchInttreg_intcon1 (v l : Nat) : (s.latchInttreg v l).intcon1 = s.intcon1 :=
  by rw [State.latchInttreg_frame s v l]
@[simp] theorem State.latchInttreg_intcon2 (v l : Nat) : (s.latchInttreg v l).intcon2 = s.intcon2 :=
  by rw [State.latchInttreg_frame s v l]
@[simp] theorem State.latchInttreg_ifs (v l : Nat) : (s.latchInttreg v l).ifs = s.ifs :=
  by rw [State.latchInttreg_frame s v l]
@[simp] theorem State.latchInttreg_iec (v l : Nat) : (s.latchInttreg v l).iec = s.iec :=
  by rw [State.latchInttreg_frame s v l]
@[simp] theorem State.latchInttreg_ipc (v l : Nat) : (s.latchInttreg v l).ipc = s.ipc :=
  by rw [State.latchInttreg_frame s v l]
@[simp] theorem State.latchInttreg_disicnt (v l : Nat) : (s.latchInttreg v l).disicnt = s.disicnt :=
  by rw [State.latchInttreg_frame s v l]
@[simp] theorem State.latchInttreg_splim (v l : Nat) : (s.latchInttreg v l).splim = s.splim :=
  by rw [State.latchInttreg_frame s v l]
@[simp] theorem State.latchInttreg_trapr (v l : Nat) : (s.latchInttreg v l).trapr = s.trapr :=
  by rw [State.latchInttreg_frame s v l]
@[simp] theorem State.latchInttreg_cf (v l : Nat) : (s.latchInttreg v l).cf = s.cf :=
  by rw [State.latchInttreg_frame s v l]
@[simp] theorem State.latchInttreg_accA (v l : Nat) : (s.latchInttreg v l).accA = s.accA :=
  by rw [State.latchInttreg_frame s v l]
@[simp] theorem State.latchInttreg_accB (v l : Nat) : (s.latchInttreg v l).accB = s.accB :=
  by rw [State.latchInttreg_frame s v l]
@[simp] theorem State.latchInttreg_splimArmed (v l : Nat) : (s.latchInttreg v l).splimArmed = s.splimArmed :=
  by rw [State.latchInttreg_frame s v l]
@[simp] theorem State.latchInttreg_pmode (v l : Nat) : (s.latchInttreg v l).pmode = s.pmode :=
  by rw [State.latchInttreg_frame s v l]
@[simp] theorem State.latchInttreg_pin (v l : Nat) : (s.latchInttreg v l).pin = s.pin :=
  by rw [State.latchInttreg_frame s v l]
@[simp] theorem State.latchInttreg_tempPc (v l : Nat) : (s.latchInttreg v l).tempPc = s.tempPc :=
  by rw [State.latchInttreg_frame s v l]
@[simp] theorem State.latchInttreg_tempSrl (v l : Nat) : (s.latchInttreg v l).tempSrl = s.tempSrl :=
  by rw [State.latchInttreg_frame s v l]
@[simp] theorem State.latchInttreg_irqSkid (v l : Nat) : (s.latchInttreg v l).irqSkid = s.irqSkid :=
  by rw [State.latchInttreg_frame s v l]
@[simp] theorem State.latchInttreg_stkAge (v l : Nat) : (s.latchInttreg v l).stkAge = s.stkAge :=
  by rw [State.latchInttreg_frame s v l]
@[simp] theorem State.latchInttreg_mathAge (v l : Nat) : (s.latchInttreg v l).mathAge = s.mathAge :=
  by rw [State.latchInttreg_frame s v l]
@[simp] theorem State.latchInttreg_data (v l : Nat) : (s.latchInttreg v l).data = s.data :=
  by rw [State.latchInttreg_frame s v l]
@[simp] theorem State.latchInttreg_prog (v l : Nat) : (s.latchInttreg v l).prog = s.prog :=
  by rw [State.latchInttreg_frame s v l]
@[simp] theorem State.latchInttreg_ipcStale (v l : Nat) : (s.latchInttreg v l).ipcStale = s.ipcStale :=
  by rw [State.latchInttreg_frame s v l]
@[simp] theorem State.latchInttreg_conflictDue (v l : Nat) : (s.latchInttreg v l).conflictDue = s.conflictDue :=
  by rw [State.latchInttreg_frame s v l]
@[simp] theorem State.latchInttreg_inputs (v l : Nat) : (s.latchInttreg v l).inputs = s.inputs :=
  by rw [State.latchInttreg_frame s v l]
@[simp] theorem State.latchInttreg_device (v l : Nat) : (s.latchInttreg v l).device = s.device :=
  by rw [State.latchInttreg_frame s v l]

@[simp] theorem State.atBoundary_pc : (s.atBoundary).pc = s.pc := by rw [State.atBoundary_frame s]
@[simp] theorem State.atBoundary_w : (s.atBoundary).w = s.w := by rw [State.atBoundary_frame s]
@[simp] theorem State.atBoundary_sr : (s.atBoundary).sr = s.sr := by rw [State.atBoundary_frame s]
@[simp] theorem State.atBoundary_corcon : (s.atBoundary).corcon = s.corcon := by rw [State.atBoundary_frame s]
@[simp] theorem State.atBoundary_intcon1 : (s.atBoundary).intcon1 = s.intcon1 := by rw [State.atBoundary_frame s]
@[simp] theorem State.atBoundary_intcon2 : (s.atBoundary).intcon2 = s.intcon2 := by rw [State.atBoundary_frame s]
@[simp] theorem State.atBoundary_ifs : (s.atBoundary).ifs = s.ifs := by rw [State.atBoundary_frame s]
@[simp] theorem State.atBoundary_iec : (s.atBoundary).iec = s.iec := by rw [State.atBoundary_frame s]
@[simp] theorem State.atBoundary_ipc : (s.atBoundary).ipc = s.ipc := by rw [State.atBoundary_frame s]
@[simp] theorem State.atBoundary_disicnt : (s.atBoundary).disicnt = s.disicnt := by rw [State.atBoundary_frame s]
@[simp] theorem State.atBoundary_splim : (s.atBoundary).splim = s.splim := by rw [State.atBoundary_frame s]
@[simp] theorem State.atBoundary_trapr : (s.atBoundary).trapr = s.trapr := by rw [State.atBoundary_frame s]
@[simp] theorem State.atBoundary_cf : (s.atBoundary).cf = s.cf := by rw [State.atBoundary_frame s]
@[simp] theorem State.atBoundary_accA : (s.atBoundary).accA = s.accA := by rw [State.atBoundary_frame s]
@[simp] theorem State.atBoundary_accB : (s.atBoundary).accB = s.accB := by rw [State.atBoundary_frame s]
@[simp] theorem State.atBoundary_splimArmed : (s.atBoundary).splimArmed = s.splimArmed :=
  by rw [State.atBoundary_frame s]
@[simp] theorem State.atBoundary_pmode : (s.atBoundary).pmode = s.pmode := by rw [State.atBoundary_frame s]
@[simp] theorem State.atBoundary_pin : (s.atBoundary).pin = s.pin := by rw [State.atBoundary_frame s]
@[simp] theorem State.atBoundary_tempPc : (s.atBoundary).tempPc = s.tempPc := by rw [State.atBoundary_frame s]
@[simp] theorem State.atBoundary_tempSrl : (s.atBoundary).tempSrl = s.tempSrl := by rw [State.atBoundary_frame s]
@[simp] theorem State.atBoundary_irqSkid : (s.atBoundary).irqSkid = s.irqSkid := by rw [State.atBoundary_frame s]
@[simp] theorem State.atBoundary_stkAge : (s.atBoundary).stkAge = s.stkAge := by rw [State.atBoundary_frame s]
@[simp] theorem State.atBoundary_mathAge : (s.atBoundary).mathAge = s.mathAge := by rw [State.atBoundary_frame s]
@[simp] theorem State.atBoundary_data : (s.atBoundary).data = s.data := by rw [State.atBoundary_frame s]
@[simp] theorem State.atBoundary_prog : (s.atBoundary).prog = s.prog := by rw [State.atBoundary_frame s]
@[simp] theorem State.atBoundary_conflictDue : (s.atBoundary).conflictDue = s.conflictDue :=
  by rw [State.atBoundary_frame s]
@[simp] theorem State.atBoundary_inputs : (s.atBoundary).inputs = s.inputs := by rw [State.atBoundary_frame s]
@[simp] theorem State.atBoundary_device : (s.atBoundary).device = s.device := by rw [State.atBoundary_frame s]
end Sys2Proof.Machine
end

