-- ==== Sys2Proof/Laws/Kept.lean ====
section
/-! SUPPORT. The case analysis of the step, made once: a property that every elementary update keeps is kept by every
step. -/

namespace Sys2Proof.Machine

/-- The property is kept by every elementary update of the state. -/
structure Kept (P : State → Prop) : Prop where
  pc : ∀ {s : State} (a : ProgAddr), a.getLsbD 0 = false → P s → P { s with pc := a }
  advance : ∀ {s : State} (k : Nat), P s → P (s.advance (2 * k))
  setSp : ∀ {s : State} (v : Word), P s → P (s.setSp v)
  reg : ∀ {s : State} (d : BitVec 4) (v : Word), d ≠ 15#4 → P s → P { s with w := s.w.set d.toNat v d.isLt }
  /-- SR takes a value that leaves its upper byte. -/
  sr : ∀ {s : State} (v : Word), v.extractLsb' 8 8 = s.sr.extractLsb' 8 8 → P s → P { s with sr := v }
  accOverflow : ∀ {s : State} (x : Acc) (b : Bool), P s → P (s.withAccOverflow x b)
  coreFlags : ∀ {s : State} (v : Word), P s → P (s.withCoreFlags v)
  doLevel : ∀ {s : State} (n : BitVec 3), P s → P (s.withDoLevel n)
  conflict : ∀ {s : State}, P s → P { s with conflictDue := true }
  ipl3 : ∀ {s : State} (b : Bool), P s → P (s.withIpl3 b)
  flag : ∀ {s : State} (i : Nat), i ≠ 0 → i ≠ 5 → P s → P (s.setIntcon1 i)
  corcon : ∀ {s : State} (v : Word), P s → P (s.writeCorcon v)
  intcon1 : ∀ {s : State} (v : Word), P s → P (s.writeIntcon1 v)
  intcon2 : ∀ {s : State} (v : Word), P s → P (s.writeIntcon2 v)
  ifs : ∀ {s : State} (k : Fin 3) (v : Word), P s → P (s.writeIfs k v)
  iec : ∀ {s : State} (k : Fin 3) (v : Word), P s → P (s.writeIec k v)
  ipc : ∀ {s : State} (j : Fin 11) (v : Word), P s → P (s.writeIpc j v)
  splim : ∀ {s : State} (v : Word) (b : Bool), P s → P { s with splim := evenWord v, splimArmed := b }
  disi : ∀ {s : State} (k : BitVec 14), P s → P ({ s with disicnt := k }.withDisi (k != 0))
  disicnt : ∀ {s : State} (k : BitVec 14), s.disiActive = false → P s → P { s with disicnt := k }
  countDown : ∀ {s : State}, P s → P s.countDown
  ram : ∀ {s : State} (a : Nat) (v : Byte), Config.ramBase ≤ a → a < 0x10000 → P s →
    P { s with data := writeByte s.data a v }
  inttreg : ∀ {s : State} (v : Word) (h : InttregHold), v &&& 0xF080#16 = 0 → P s →
    P { s with inttreg := v, inttregHold := h }
  irqFlag : ∀ {s : State} (n : Nat), P s → P (s.setIrqFlag n)
  reset : ∀ {s : State} (k : ResetKind), P s → P (s.deviceReset k)
  /-- The fields that no elementary update above writes. -/
  rest : ∀ {s : State} (trapr cf : Bool) (accA accB : BitVec 40) (pmode : PMode) (pin : Vector Bool 3)
    (tempPc : ProgAddr) (tempSrl : Byte) (irqSkid : IrqSkid) (stkAge mathAge : Nat)
    (ipcStale : Option (Vector Word 11)) (inputs : List Input) (draws : Nat), P s →
    P { s with
      trapr := trapr, cf := cf, accA := accA, accB := accB, pmode := pmode, pin := pin, tempPc := tempPc
      tempSrl := tempSrl, irqSkid := irqSkid, stkAge := stkAge, mathAge := mathAge, ipcStale := ipcStale
      inputs := inputs, draws := draws }

/-- The answer, where it goes on, has the property. -/
def Answer.keeps (P : State → Prop) (o : Answer) : Prop := ∀ t, o = .next t → P t

variable {P : State → Prop}

theorem Answer.keeps_next {s : State} (h : P s) : Answer.keeps P (.next s) := fun _ e => by cases e; exact h

theorem Answer.keeps_fault (r : Fault) : Answer.keeps P (.fault r) := fun _ e => by cases e

theorem Answer.keeps_refused (r : Refusal) : Answer.keeps P (.refused r) := fun _ e => by cases e

theorem Answer.keeps_ite {c : Prop} [Decidable c] {a b : Answer} (ha : Answer.keeps P a) (hb : Answer.keeps P b) :
    Answer.keeps P (if c then a else b) := by split <;> assumption

theorem Answer.keeps_andThen {o : Answer} {f : State → Answer} (ho : Answer.keeps P o)
    (hf : ∀ s, P s → Answer.keeps P (f s)) : Answer.keeps P (andThen o f) := by
  cases o with
  | next s => exact hf s (ho s rfl)
  | fault r => exact Answer.keeps_fault r
  | refused r => exact Answer.keeps_refused r

theorem kept_ite {c : Prop} [Decidable c] {a b : State} (ha : P a) (hb : P b) : P (if c then a else b) := by
  split <;> assumption

theorem evenPc_bit (a : ProgAddr) : (evenPc a).getLsbD 0 = false := by
  unfold evenPc; rw [BitVec.getLsbD_and]; simp

theorem frameReturn_bit (hi lo : Word) : (frameReturn hi lo).getLsbD 0 = false := by
  unfold frameReturn; rw [BitVec.getLsbD_append]; simp

/-- The unimplemented bits of INTTREG are 0 in what an entry latches. -/
theorem inttregOf_reserved (v l : Nat) : inttregOf v l &&& 0xF080#16 = 0 := by
  apply BitVec.eq_of_getLsbD_eq
  intro i hi
  unfold inttregOf
  rw [BitVec.getLsbD_and, BitVec.getLsbD_append, BitVec.getLsbD_append, BitVec.getLsbD_append]
  interval_cases i <;> simp

theorem loseInttreg_reserved (v : Word) : v &&& inttregImplemented &&& 0xF080#16 = 0 := by
  rw [BitVec.and_assoc, show inttregImplemented &&& 0xF080#16 = 0 from by decide]; simp

/-- A word in RAM lies between the RAM's bounds. -/
theorem ram_bounds {d : Config.Device} {a : Word} (h : placeOf d a = .ram) :
    Config.ramBase ≤ (evenWord a).toNat ∧ (evenWord a).toNat + 1 < 0x10000 ∧ (evenWord a).toNat ≤ a.toNat := by
  have h1 : Config.ramBase ≤ (evenWord a).toNat := by
    unfold placeOf at h
    dsimp only at h
    split at h
    · cases h
    · split at h
      · assumption
      · split at h <;> cases h
  refine ⟨h1, ?_, ?_⟩
  · have := a.isLt
    have h2 : (evenWord a).toNat % 2 = 0 := by
      unfold evenWord; rw [BitVec.toNat_and, show (65534#16).toNat = 65534 from rfl]
      have h3 : (a.toNat &&& 65534).testBit 0 = false := by rw [Nat.testBit_and]; simp
      rw [Nat.testBit_zero] at h3
      have h4 := of_decide_eq_false h3
      omega
    have := (evenWord a).isLt
    omega
  · unfold evenWord; rw [BitVec.toNat_and]; exact Nat.and_le_left

/-- A write to the lower byte of SR leaves its upper byte. -/
theorem merge_upper (old new mask : Word) (h : mask.extractLsb' 8 8 = 0#8) :
    (merge old new mask).extractLsb' 8 8 = old.extractLsb' 8 8 := by
  apply BitVec.eq_of_getLsbD_eq
  intro i hi
  have h1 : mask.getLsbD (8 + i) = false := by
    have := congrArg (fun v => v.getLsbD i) h
    simpa [hi] using this
  rw [BitVec.getLsbD_extractLsb', BitVec.getLsbD_extractLsb', getLsbD_merge, h1]
  rfl

theorem srWritable_upper (b : Bool) : (srWritable b).extractLsb' 8 8 = 0#8 := by cases b <;> decide

theorem append_upper (hi lo : Byte) : (hi ++ lo : Word).extractLsb' 8 8 = hi := by
  apply BitVec.eq_of_getLsbD_eq
  intro i h
  rw [BitVec.getLsbD_extractLsb', BitVec.getLsbD_append]
  simp [h]

namespace Kept

variable (K : Kept P) {s : State}
include K

theorem setPc (a : ProgAddr) (h : P s) : P (s.setPc a) := K.pc _ (evenPc_bit a) h

theorem drawn (n : Nat) (h : P s) : P (s.drawn n) :=
  K.rest s.trapr s.cf s.accA s.accB s.pmode s.pin s.tempPc s.tempSrl s.irqSkid s.stkAge s.mathAge s.ipcStale s.inputs
    (s.draws + n) h

theorem skid (k : IrqSkid) (h : P s) : P { s with irqSkid := k } :=
  K.rest s.trapr s.cf s.accA s.accB s.pmode s.pin s.tempPc s.tempSrl k s.stkAge s.mathAge s.ipcStale s.inputs
    s.draws h

theorem mode (m : PMode) (h : P s) : P { s with pmode := m } :=
  K.rest s.trapr s.cf s.accA s.accB m s.pin s.tempPc s.tempSrl s.irqSkid s.stkAge s.mathAge s.ipcStale s.inputs
    s.draws h

theorem flagTrap (t : Trap) (h : P s) : P (s.flagTrap t) := by
  cases t <;> exact K.flag _ (by decide) (by decide) h

theorem raiseMathError {i : Nat} (h0 : i ≠ 0) (h5 : i ≠ 5) (h : P s) : P (s.raiseMathError i) :=
  K.flagTrap .math (K.flag i h0 h5 h)

theorem flagOscFail (h : P s) : P s.flagOscFail :=
  K.rest (s := s.flagTrap .oscillator) s.trapr true s.accA s.accB s.pmode s.pin s.tempPc s.tempSrl s.irqSkid s.stkAge
    s.mathAge s.ipcStale s.inputs s.draws (K.flagTrap .oscillator h)

theorem setW (d : BitVec 4) (v : Word) (h : P s) : P (s.setW d v) := by
  unfold State.setW
  split
  · exact K.setSp v h
  · exact K.reg d v (by assumption) h

theorem checkSp (h : P s) : P s.checkSp := kept_ite (K.flagTrap .stack h) h

theorem loseSp (h : P s) : P s.loseSp := K.drawn 1 (K.setSp _ h)

theorem settleSp (b : Bool) (h : P s) : P (s.settleSp b) :=
  kept_ite (K.loseSp (K.flagTrap .stack h)) h

theorem tick (h : P s) : P s.tick :=
  K.countDown <| K.rest s.trapr s.cf s.accA s.accB s.pmode s.pin s.tempPc s.tempSrl s.irqSkid _ _ s.ipcStale s.inputs
    s.draws h

theorem ticks : ∀ (n : Nat) {s : State}, P s → P (s.ticks n)
  | 0, _, h => h
  | n + 1, _, h => ticks n (K.tick h)

theorem writeDisicnt (v : Word) (h : P s) : P (s.writeDisicnt v) := by
  unfold State.writeDisicnt
  dsimp only
  split
  · exact K.disi _ h
  · rename_i hd
    have hd : s.disiActive = false := by simpa using hd
    exact kept_ite (K.disicnt 0 hd h) (K.drawn 1 (K.disicnt _ hd h))

theorem writeRcon (v : Word) (h : P s) : P (s.writeRcon v) :=
  K.rest _ s.cf s.accA s.accB s.pmode s.pin s.tempPc s.tempSrl s.irqSkid s.stkAge s.mathAge s.ipcStale s.inputs
    s.draws h

theorem writeOsccon (h : P s) : P s.writeOsccon :=
  K.drawn 1 (K.rest s.trapr (Config.freeBool s.draws) s.accA s.accB s.pmode s.pin s.tempPc s.tempSrl s.irqSkid s.stkAge
    s.mathAge s.ipcStale s.inputs s.draws h)

theorem writeSfr (v : Word) (r : Sfr) (h : P s) : P (s.writeSfr v r) := by
  cases r with
  | wReg d => exact K.setW d v h
  | sr => exact K.sr _ (merge_upper _ _ _ (srWritable_upper _)) h
  | corcon => exact K.corcon v h
  | intcon1 => exact K.intcon1 v h
  | intcon2 => exact K.intcon2 v h
  | ifs k => exact K.ifs k v h
  | iec k => exact K.iec k v h
  | ipc j => exact K.ipc j v h
  | inttreg => exact h
  | disicnt => exact K.writeDisicnt v h
  | splim => exact K.splim v true h
  | rcon => exact K.writeRcon v h
  | osccon => exact K.writeOsccon h

theorem writeSfrByte (high : Bool) (b : Byte) (r : Sfr) (h : P s) : P (s.writeSfrByte high b r) := by
  unfold State.writeSfrByte
  split
  · exact K.drawn 1 (K.splim _ _ h)
  · exact kept_ite h (K.writeOsccon h)
  · exact kept_ite (K.writeRcon _ h) h
  · exact K.writeSfr _ _ h

theorem writeDataWord (a v : Word) (h : P s) : P (s.writeDataWord a v) := by
  unfold State.writeDataWord
  split
  · exact K.writeSfr _ _ h
  · exact h
  · rename_i hp
    obtain ⟨h1, h2, -⟩ := ram_bounds hp
    exact K.ram (s := { s with data := writeByte s.data _ _ }) _ _ (by omega) h2 (K.ram _ _ h1 (by omega) h)

theorem writeDataByte (a : Word) (b : Byte) (h : P s) : P (s.writeDataByte a b) := by
  unfold State.writeDataByte
  split
  · exact K.writeSfrByte _ _ _ h
  · exact h
  · rename_i hp
    obtain ⟨h1, -, h3⟩ := ram_bounds hp
    exact K.ram _ _ (by omega) a.isLt h

theorem settleHardTrap (t : Trap) (h : P s) : Answer.keeps P (s.settleHardTrap t) :=
  Answer.keeps_ite (Answer.keeps_next (K.conflict h))
    (Answer.keeps_ite (Answer.keeps_fault _) (Answer.keeps_next h))

theorem raiseAddressError (h : P s) : Answer.keeps P s.raiseAddressError :=
  K.settleHardTrap .address (K.flagTrap .address h)

/-! #### Entry and return -/

theorem pushWord (v : Word) (h : P s) : P (s.pushWord v) := by
  unfold State.pushWord
  exact K.setSp _ (kept_ite (K.writeDataWord _ _ h) h)

theorem withIpl (l : BitVec 3) (h : P s) : P (s.withIpl l) := K.sr _ (merge_upper _ _ _ (by decide)) h

theorem enterLevel (l : Nat) (h : P s) : P (s.enterLevel l) := by
  unfold State.enterLevel
  exact kept_ite (K.withIpl _ (K.ipl3 _ h)) (kept_ite (K.withIpl _ h) (K.withIpl _ h))

theorem loseInttreg (h : P s) : P s.loseInttreg :=
  K.drawn 1 (K.inttreg _ _ (loseInttreg_reserved _) h)

theorem entered (v l : Nat) (h : P s) : P (s.entered v l) := by
  unfold State.entered
  dsimp only
  apply K.ticks
  have h1 : P (s.saveTemp.pushFrame.enterLevel l) :=
    K.enterLevel l <| K.pushWord _ <| K.pushWord _ <|
      K.rest s.trapr s.cf s.accA s.accB s.pmode s.pin s.pc s.srl s.irqSkid s.stkAge s.mathAge s.ipcStale s.inputs
        s.draws h
  have h2 : P ((s.saveTemp.pushFrame.enterLevel l).latchInttreg v l) := by
    unfold State.latchInttreg
    exact kept_ite (K.inttreg _ _ (inttregOf_reserved v l) h1) (K.loseInttreg h1)
  exact K.skid _ (K.mode _ (K.pc _ (evenPc_bit _) h2))

theorem takeException (v l : Nat) (h : P s) : Answer.keeps P (s.takeException v l) := by
  unfold State.takeException
  dsimp only
  have h1 : P (if s.pushFrameStackBad then (s.entered v l).raiseStackError else s.entered v l) :=
    kept_ite (K.flagTrap .stack (K.entered v l h)) (K.entered v l h)
  exact Answer.keeps_ite (Answer.keeps_ite (K.raiseAddressError h1) (Answer.keeps_next h1)) (Answer.keeps_refused _)

theorem returned (h : P s) : P s.returned := by
  unfold State.returned
  exact K.pc _ (frameReturn_bit _ _) (K.ipl3 _ (K.sr _ (append_upper _ _) (K.setSp _ (kept_ite (K.drawn 3 h) h))))

theorem returnFromException (h : P s) : Answer.keeps P s.returnFromException := by
  have h1 : P (if s.returnStackBad then s.returned.raiseStackError else s.returned) :=
    kept_ite (K.flagTrap .stack (K.returned h)) (K.returned h)
  exact Answer.keeps_ite (K.raiseAddressError h1) (Answer.keeps_next h1)

/-! #### Instructions -/

theorem exec (i : Instr) (h : P s) : Answer.keeps P (exec i s) := by
  cases i with
  | disi k => exact Answer.keeps_next (K.advance 1 (K.disi k h))
  | retfie => exact K.returnFromException h
  | reset => exact Answer.keeps_next (K.reset _ h)
  | pwrsav m => exact Answer.keeps_next (K.mode _ (K.advance 1 h))
  | goto a => exact Answer.keeps_ite (Answer.keeps_next (K.setPc a h)) (K.raiseAddressError (K.setPc a h))
  | nop _ => exact Answer.keeps_next (K.advance 1 h)
  | movLit k d => exact Answer.keeps_next (K.advance 1 (K.settleSp _ (K.setW d k h)))
  | movWsF src f =>
    exact Answer.keeps_ite (K.raiseAddressError (K.advance 1 h))
      (Answer.keeps_ite (Answer.keeps_next (K.advance 1 (K.settleSp _ (K.writeDataWord _ _ h)))) (Answer.keeps_refused _))

theorem raiseCause (c : SoftCause) (h : P s) : P (s.raiseCause c) := by
  cases c with
  | stack => exact K.flagTrap .stack h
  | overflow x => exact K.raiseMathError (by cases x <;> decide) (by cases x <;> decide) h
  | catastrophic x => exact K.raiseMathError (by cases x <;> decide) (by cases x <;> decide) h
  | shift => exact K.raiseMathError (by decide) (by decide) h
  | divide => exact K.raiseMathError (by decide) (by decide) h

theorem raiseCauses : ∀ (cs : List SoftCause) {s : State}, P s → P (s.raiseCauses cs)
  | [], _, h => h
  | c :: cs, _, h => raiseCauses cs (K.raiseCause c h)

theorem reach (ea : Word) (b b' : Bool) (h : P s) : P (s.reach ea b b').state :=
  K.drawn 1 (kept_ite (K.flagTrap .stack h) h)

theorem moveSp {x : Resolved} (v : Word) (w : CoreWrite) (h : P x.state) : P (x.moveSp v w).state :=
  K.setSp v h

theorem resolve (p : Pointer) (h : P s) : P (resolve s p).state := by
  cases p with
  | direct a => exact h
  | w15 o => exact K.reach _ _ _ h
  | push => exact K.moveSp _ _ (K.reach _ _ _ h)
  | pop => exact K.moveSp _ _ (K.reach _ _ _ h)

theorem setAcc (x : Acc) (v : BitVec 40) (h : P s) : P (s.setAcc x v) := by
  cases x
  · exact K.rest s.trapr s.cf v s.accB s.pmode s.pin s.tempPc s.tempSrl s.irqSkid s.stkAge s.mathAge s.ipcStale
      s.inputs s.draws h
  · exact K.rest s.trapr s.cf s.accA v s.pmode s.pin s.tempPc s.tempSrl s.irqSkid s.stkAge s.mathAge s.ipcStale
      s.inputs s.draws h

theorem accResult (x : Acc) (v : BitVec 40) (c c' : Bool) (h : P s) : P (s.accResult x v c c') :=
  K.raiseCauses _ (K.drawn 1 (K.accOverflow x _ (K.setAcc x v h)))

theorem shiftAcc (x : Acc) (n : Int) (v : BitVec 40) (h : P s) : P (s.shiftAcc x n v) :=
  kept_ite (K.raiseCause .shift h) (K.setAcc x v h)

theorem divideStep (x q r : Word) (dq dr : BitVec 4) (h : P s) : P (s.divideStep x q r dq dr) :=
  kept_ite (K.drawn 2 (K.setW _ _ (K.setW _ _ (K.raiseCause .divide h)))) (K.setW _ _ (K.setW _ _ h))

theorem give (r : CoreRun) (d : BitVec 4) (v : Word) (h : P r.state) : P (r.give d v).state := K.setW _ _ h

theorem load {r : CoreRun} (b : Bool) (d : BitVec 4) (v : Word) (h : P r.state) : P (r.load b d v).state :=
  K.drawn 1 (by split <;> exact K.setW _ _ h)

omit K in
theorem store {r : CoreRun} (a : Word) {write : State → State} (w : CoreWrite) (hw : ∀ {s}, P s → P (write s))
    (h : P r.state) : P (r.store a write w).state := by
  unfold CoreRun.store
  split
  · exact hw h
  · exact h

theorem apply (r : CoreRun) (e : CoreEffect) (h : P r.state) : P (r.apply e).state := by
  cases e with
  | setW d v => exact K.give r d v h
  | readWord q d => exact K.load _ d _ (K.resolve q h)
  | readByte q d => exact K.load _ d _ (K.resolve q h)
  | writeWord q v =>
    simp only [CoreRun.apply]
    split
    · exact K.resolve q h
    · exact Kept.store _ _ (K.writeDataWord _ _) (K.resolve q h)
  | writeByte q v => exact Kept.store _ _ (K.writeDataByte _ _) (K.resolve q h)
  | setBit q i v =>
    simp only [CoreRun.apply]
    split
    · exact K.resolve q h
    · exact Kept.store _ _ (K.writeDataWord _ _) (K.resolve q h)
  | macFetch sp a d => exact K.load _ d _ h
  | accResult x v c c' => exact K.accResult x _ c c' h
  | sftac x n v => exact K.shiftAcc x n _ h
  | divide x q t dq dr =>
    simp only [CoreRun.apply]
    split
    · exact K.divideStep x _ _ dq dr h
    · exact K.give _ dr t (K.give r dq q h)
  | flags v => exact K.coreFlags _ h
  | doLevel n => exact K.doLevel _ h

theorem runEffects : ∀ (es : List CoreEffect) (r : CoreRun), P r.state → P (runEffects r es).state
  | [], _, h => h
  | e :: es, r, h => runEffects es _ (K.apply r e h)

theorem runFrom (b : Bool) (es : List CoreEffect) (h : P s) : P (runFrom s b es).state :=
  K.runEffects es ⟨s, b, false, [], []⟩ h

theorem goTo (n : CoreNext) (h : P s) : P (s.goTo n) := by
  cases n with
  | fallThrough k => exact K.advance k h
  | literal t => exact K.setPc t h
  | computed t => exact K.setPc t h

theorem blur (e : Bool) (w : CoreWrite) (h : P s) : P (s.blur e w) := by
  cases w with
  | reg d => exact K.drawn 1 (K.setW _ _ h)
  | lost d => exact K.drawn 1 (K.setW _ _ h)
  | popped v => exact kept_ite (K.setSp _ h) (K.loseSp h)
  | word a => exact kept_ite (K.writeDataWord _ _ (K.drawn 1 h)) (K.drawn 1 h)
  | byte a => exact kept_ite (K.writeDataByte _ _ (K.drawn 1 h)) (K.drawn 1 h)
  | acc x => exact K.drawn 1 (K.setAcc x _ h)
  | overflow x b => exact K.drawn 1 (K.accOverflow x _ h)
  | flags => exact K.drawn 1 (K.coreFlags _ h)
  | doLevel => exact K.drawn 1 (K.doLevel _ h)

theorem blurAll (e : Bool) : ∀ (ws : List CoreWrite) (c : Bool) {s : State}, P s → P (s.blurAll e c ws)
  | [], _, _, h => kept_ite (K.checkSp h) h
  | w :: ws, _, _, h => blurAll e ws _ (K.blur e w h)

theorem trapped (r : CoreRun) (n : CoreNext) (h : P s) : P (r.trapped s n) :=
  K.raiseCauses _ <| K.goTo n <| K.blurAll _ _ _ <|
    K.rest s.trapr s.cf s.accA s.accB s.pmode s.pin s.tempPc s.tempSrl s.irqSkid s.stkAge s.mathAge s.ipcStale s.inputs
      r.state.draws h

theorem runCore (c : CoreStep) (h : P s) : Answer.keeps P (runCore c s) :=
  Answer.keeps_ite (K.raiseAddressError (K.trapped _ _ h))
    (Answer.keeps_ite (Answer.keeps_next (K.goTo _ (K.runFrom false _ h))) (Answer.keeps_next (K.trapped _ _ h)))

/-! #### The turn of the CPU and the schedule -/

theorem prepare (t : Turn) (n : Nat) (h : P s) : P (s.prepare t n) :=
  kept_ite (K.flagOscFail (K.ticks _ h)) (K.ticks _ h)

theorem complete (t : Turn) {o : Answer} (h : Answer.keeps P o) : Answer.keeps P (complete t o) := by
  unfold Machine.complete
  split
  · exact Answer.keeps_andThen h fun u hu => K.settleHardTrap _ hu
  · exact h

theorem executeUnimplemented (t : Turn) (h : P s) : Answer.keeps P (s.executeUnimplemented t) :=
  K.complete t (K.raiseAddressError (K.prepare t _ h))

theorem instruction (t : Turn) (h : P s) : Answer.keeps P (s.instruction t) := by
  unfold State.instruction
  split
  · split
    · exact K.complete t (K.exec _ (K.prepare t _ h))
    · unfold State.executeUnlisted
      split
      · exact K.complete t (K.runCore _ (K.prepare t _ h))
      · exact Answer.keeps_refused _
    · exact Answer.keeps_refused _
    · exact K.executeUnimplemented t h
    · exact K.executeUnimplemented t h
  · exact K.executeUnimplemented t h

theorem atBoundary (h : P s) : P s.atBoundary := by
  have h1 : P s.refreshInttreg := kept_ite (K.loseInttreg h) h
  exact K.rest _ _ _ _ _ _ _ _ _ _ _ none _ _ h1

theorem cpuTurn (t : Turn) (h : P s) : Answer.keeps P (s.cpuTurn t) := by
  have hb := K.atBoundary h
  have hs : Answer.keeps P (s.asleep t) := by
    unfold State.asleep
    split
    · exact Answer.keeps_next (K.skid (s := { s with pmode := .run }) .woken (K.mode .run h))
    · split
      · exact Answer.keeps_ite (K.takeException _ _ hb) (Answer.keeps_next h)
      · exact Answer.keeps_next h
  unfold State.cpuTurn
  split
  · exact Answer.keeps_next (K.reset _ h)
  split
  · unfold State.boundary
    dsimp only
    split
    · exact Answer.keeps_ite (K.instruction t (K.skid _ hb)) (K.takeException _ _ hb)
    · split
      · exact Answer.keeps_andThen (K.takeException _ _ hb) fun u hu => Answer.keeps_next (K.skid _ hu)
      · exact K.instruction t (K.skid _ hb)
  · exact hs
  · exact hs

theorem deliver (e : Input) (h : P s) : Answer.keeps P (s.deliver e) := by
  cases e with
  | cpu t => exact K.cpuTurn t h
  | tick => exact Answer.keeps_next (kept_ite h (K.tick h))
  | irq n => exact Answer.keeps_next (K.irqFlag n h)
  | pinEdge x dir =>
    have h1 : P { s with pin := s.pin.set x (decide (dir = .rising)) x.isLt } :=
      K.rest s.trapr s.cf s.accA s.accB s.pmode _ s.tempPc s.tempSrl s.irqSkid s.stkAge s.mathAge s.ipcStale s.inputs
        s.draws h
    exact Answer.keeps_next (kept_ite (K.irqFlag _ h1) h1)
  | oscFail => exact K.settleHardTrap _ (K.flagOscFail h)
  | powerOnReset => exact Answer.keeps_next (K.reset _ h)
  | otherReset => exact Answer.keeps_next (K.reset _ h)

/-- What every elementary update keeps, every step keeps. -/
theorem step (h : P s) : Answer.keeps P (step s) := by
  unfold Machine.step State.proceed
  split
  · exact K.cpuTurn _ (K.drawn 1 h)
  · exact K.deliver _ (K.rest s.trapr s.cf s.accA s.accB s.pmode s.pin s.tempPc s.tempSrl s.irqSkid s.stkAge s.mathAge
      s.ipcStale _ s.draws h)

end Kept

end Sys2Proof.Machine
end

