-- ==== Sys2Proof/Laws/PerInstr.lean ====
section
/-! SUPPORT. Statements about every instruction as syntax, with one lemma for each constructor. -/

namespace Sys2Proof.Laws

/-- The encoding of an instruction has as many words as the instruction occupies (30 R114). -/
def EncodedLength.Statement (i : Instr) : Prop := (encode i).length = i.words

theorem EncodedLength.disi (k : BitVec 14) : EncodedLength.Statement (.disi k) := rfl

theorem EncodedLength.retfie : EncodedLength.Statement .retfie := rfl

theorem EncodedLength.reset : EncodedLength.Statement .reset := rfl

theorem EncodedLength.pwrsav (m : PowerSave) : EncodedLength.Statement (.pwrsav m) := by cases m <;> rfl

theorem EncodedLength.goto (addr : ProgAddr) : EncodedLength.Statement (.goto addr) := rfl

theorem EncodedLength.nop (ignored : Word) : EncodedLength.Statement (.nop ignored) := rfl

theorem EncodedLength.movLit (k : Word) (d : BitVec 4) : EncodedLength.Statement (.movLit k d) := rfl

theorem EncodedLength.movWsF (src : BitVec 4) (f : Word) : EncodedLength.Statement (.movWsF src f) := rfl

end Sys2Proof.Laws
end

