-- ==== Sys2Proof/Laws/Stack.lean ====
section
/-! SUPPORT. The pushes and pops of an exception where the stack lies in implemented data RAM. -/

namespace Sys2Proof.Machine

/-! ### Addresses -/

theorem evenWord_of_even {v : Word} (h : v.getLsbD 0 = false) : evenWord v = v := by
  apply BitVec.eq_of_getLsbD_eq
  intro i hi
  unfold evenWord
  rw [BitVec.getLsbD_and]
  interval_cases i <;> simp_all

theorem evenWord_even (v : Word) : (evenWord v).getLsbD 0 = false := by
  unfold evenWord; rw [BitVec.getLsbD_and]; simp

theorem even_iff_mod (v : Word) : v.getLsbD 0 = false ↔ v.toNat % 2 = 0 := by
  rw [← BitVec.testBit_toNat, Nat.testBit_zero, decide_eq_false_iff_not]; omega

/-- At an even address from 0x0800 on stands RAM. -/
theorem placeOf_ram (d : Config.Device) {a : Word} (h : a.getLsbD 0 = false) (hr : 0x0800 ≤ a.toNat) :
    placeOf d a = .ram := by
  unfold placeOf
  rw [evenWord_of_even h]
  dsimp only
  rw [if_neg (by omega), if_pos (show Config.ramBase ≤ a.toNat from hr)]

theorem State.readDataWord_ram {s : State} {a : Word} (h : a.getLsbD 0 = false) (hr : 0x0800 ≤ a.toNat) :
    s.readDataWord a = readWord s.data a.toNat := by
  unfold State.readDataWord; rw [placeOf_ram _ h hr, evenWord_of_even h]

theorem State.writeDataWord_ram {s : State} {a : Word} (v : Word) (h : a.getLsbD 0 = false) (hr : 0x0800 ≤ a.toNat) :
    s.writeDataWord a v = { s with data := writeWord s.data a.toNat v } := by
  unfold State.writeDataWord; rw [placeOf_ram _ h hr, evenWord_of_even h]

/-! ### Pushes -/

/-- The data memory after a push where no register stands: written in implemented RAM, else as it was. -/
def State.pushed (s : State) (m : List Host.Cell) (a v : Word) : List Host.Cell :=
  if s.dataImpl a && decide (0x0800 ≤ a.toNat) then writeWord m a.toNat v else m

/-- A push where no register of the spec stands at an implemented address. -/
theorem State.pushWord_plain {s : State} (v : Word) (h : s.sp.getLsbD 0 = false)
    (hp : s.dataImpl s.sp = true → ∀ r, placeOf s.device s.sp ≠ .sfr r) :
    s.pushWord v = { s with data := s.pushed s.data s.sp v, w := s.w.set 15 (s.sp + 2#16) } := by
  have h2 : (s.sp + 2#16).getLsbD 0 = false := by
    rw [even_iff_mod] at h ⊢; rw [BitVec.toNat_add]; simp; omega
  have hw : (if s.dataImpl s.sp then s.writeDataWord s.sp v else s) = { s with data := s.pushed s.data s.sp v } := by
    unfold State.pushed
    cases hd : s.dataImpl s.sp
    · rfl
    · by_cases hr : 0x0800 ≤ s.sp.toNat
      · rw [if_pos rfl, State.writeDataWord_ram v h hr, decide_eq_true hr]; rfl
      · rw [decide_eq_false hr]
        unfold State.writeDataWord
        cases hq : placeOf s.device s.sp with
        | sfr r => exact absurd hq (hp hd r)
        | undescribed => rfl
        | ram =>
          exfalso
          unfold placeOf at hq
          rw [evenWord_of_even h] at hq
          dsimp only at hq
          split at hq
          · cases hq
          · rw [if_neg (show ¬ Config.ramBase ≤ s.sp.toNat from hr)] at hq
            split at hq <;> cases hq
  unfold State.pushWord
  rw [hw]
  unfold State.setSp
  dsimp only
  rw [show State.sp { s with data := s.pushed s.data s.sp v } = s.sp from rfl, evenWord_of_even h2]

/-- The two pushes of an entry where no register of the spec stands at an implemented address. -/
theorem State.pushFrame_plain {s : State} (h : s.sp.getLsbD 0 = false)
    (hp : s.dataImpl s.sp = true → ∀ r, placeOf s.device s.sp ≠ .sfr r)
    (hq : s.dataImpl (s.sp + 2#16) = true → ∀ r, placeOf s.device (s.sp + 2#16) ≠ .sfr r) :
    (s.pushWord (frameLow s.pc)).sp = s.sp + 2#16 ∧
    s.pushFrame =
      { s with
        data := s.pushed (s.pushed s.data s.sp (frameLow s.pc)) (s.sp + 2#16) (frameHigh s.srl s.ipl3 s.pc)
        w := s.w.set 15 (s.sp + 4#16) } := by
  have hsp : (s.pushWord (frameLow s.pc)).sp = s.sp + 2#16 := by
    rw [State.pushWord_plain _ h hp]; simp [State.sp]
  have h2 : (s.sp + 2#16).getLsbD 0 = false := by
    rw [even_iff_mod] at h ⊢; rw [BitVec.toNat_add]; simp; omega
  refine ⟨hsp, ?_⟩
  unfold State.pushFrame
  dsimp only
  rw [State.pushWord_plain _ (by rw [hsp]; exact h2) (by rw [hsp, State.pushWord_plain _ h hp]; exact hq), hsp,
    State.pushWord_plain _ h hp]
  have e : s.sp + 2#16 + 2#16 = s.sp + 4#16 := by rw [BitVec.add_assoc]; rfl
  simp only [e, Vector.set_set]
  rfl

/-- When an address is off the stack. -/
theorem State.stackBad_iff (s : State) (a : Word) :
    s.stackBad a = true ↔ a.toNat < 0x0800 ∨ (s.splimArmed = true ∧ s.splim.toNat < a.toNat) := by
  unfold State.stackBad Config.stackBase
  simp [BitVec.lt_def]

/-- What the two pushes of an entry raise where no register of the spec stands at an implemented address. -/
theorem State.pushFrame_checks {s : State} (h : s.sp.getLsbD 0 = false)
    (hp : s.dataImpl s.sp = true → ∀ r, placeOf s.device s.sp ≠ .sfr r)
    (hq : s.dataImpl (s.sp + 2#16) = true → ∀ r, placeOf s.device (s.sp + 2#16) ≠ .sfr r) :
    (s.pushFrameStackBad = true ↔
      s.sp.toNat < 0x0800 ∨ (s.sp + 2#16).toNat < 0x0800 ∨ (s.sp + 4#16).toNat < 0x0800 ∨
        (s.splimArmed = true ∧ (s.splim.toNat < s.sp.toNat ∨ s.splim.toNat < (s.sp + 2#16).toNat))) ∧
    (s.pushFrameUnimplemented = true ↔ s.dataImpl s.sp = false ∨ s.dataImpl (s.sp + 2#16) = false) := by
  obtain ⟨h1, h2⟩ := State.pushFrame_plain h hp hq
  have h3 : s.pushFrame.sp = s.sp + 4#16 := by rw [h2]; simp [State.sp]
  have h4 : decide (s.sp + 4#16 < Config.stackBase) = true ↔ (s.sp + 4#16).toNat < 0x0800 := by
    unfold Config.stackBase; simp [BitVec.lt_def]
  unfold State.pushFrameStackBad State.pushFrameUnimplemented
  rw [h1, h3]
  simp only [Bool.or_eq_true, State.stackBad_iff, h4]
  constructor
  · generalize s.sp.toNat = x; generalize (s.sp + 2#16).toNat = y; generalize (s.sp + 4#16).toNat = z
    cases s.splimArmed <;> simp <;> omega
  · cases s.dataImpl s.sp <;> cases s.dataImpl (s.sp + 2#16) <;> simp

/-- The state after an exception entry with the flags that its pushes set. -/
def State.enteredFlagged (s : State) (v l : Nat) : State :=
  { s.entered v l with
    intcon1 :=
      let x := if s.pushFrameStackBad then setBitTo (s.entered v l).intcon1 2 true else (s.entered v l).intcon1
      if s.pushFrameUnimplemented then setBitTo x 3 true else x }

/-- All that an exception entry can answer. -/
theorem State.takeException_eq (s : State) (v l : Nat) :
    s.takeException v l =
      if s.progImpl (s.pushFrame.vectorLocation v) then
        if s.pushFrameUnimplemented then (s.enteredFlagged v l).settleHardTrap .address
        else .next (s.enteredFlagged v l)
      else .refused (.unimplementedVector (s.pushFrame.vectorLocation v)) := by
  unfold State.takeException State.raiseAddressError State.enteredFlagged
  dsimp only
  generalize s.entered v l = u
  generalize s.pushFrameStackBad = a
  generalize s.pushFrameUnimplemented = b
  cases a <;> cases b <;> rfl

/-- In RAM stands no register. -/
theorem placeOf_ne_sfr {d : Config.Device} {a : Word} (h : a.getLsbD 0 = false) (hr : 0x0800 ≤ a.toNat) (r : Sfr) :
    placeOf d a ≠ .sfr r := by
  rw [placeOf_ram d h hr]; exact nofun

/-- The two pushes of an entry into implemented RAM. -/
theorem State.pushFrame_ram {s : State} (h : s.sp.getLsbD 0 = false) (hr : 0x0800 ≤ s.sp.toNat)
    (ht : s.sp.toNat + 4 < 0x10000) (hd : s.dataImpl s.sp = true) (hd2 : s.dataImpl (s.sp + 2#16) = true) :
    (s.pushWord (frameLow s.pc)).sp = s.sp + 2#16 ∧
    s.pushFrame =
      { s with
        data := writeWord (writeWord s.data s.sp.toNat (frameLow s.pc)) (s.sp.toNat + 2)
          (frameHigh s.srl s.ipl3 s.pc)
        w := s.w.set 15 (s.sp + 4#16) } := by
  have h2 : (s.sp + 2#16).getLsbD 0 = false := by
    rw [even_iff_mod] at h ⊢; rw [BitVec.toNat_add]; simp; omega
  have ha : (s.sp + 2#16).toNat = s.sp.toNat + 2 := by rw [BitVec.toNat_add]; simp; omega
  obtain ⟨h3, h4⟩ := State.pushFrame_plain h (fun _ => placeOf_ne_sfr h hr) fun _ => placeOf_ne_sfr h2 (by omega)
  refine ⟨h3, ?_⟩
  rw [h4]
  unfold State.pushed
  rw [hd, hd2, decide_eq_true hr, decide_eq_true (show 0x0800 ≤ (s.sp + 2#16).toNat by omega), ha]
  rfl

/-- No check trips while the pushes go to implemented RAM below the limit. -/
theorem State.pushFrame_ok {s : State} (h : s.sp.getLsbD 0 = false) (hr : 0x0800 ≤ s.sp.toNat)
    (ht : s.sp.toNat + 4 < 0x10000) (hl : s.splimArmed = true → s.sp.toNat + 2 ≤ s.splim.toNat)
    (hd : s.dataImpl s.sp = true) (hd2 : s.dataImpl (s.sp + 2#16) = true) :
    s.pushFrameStackBad = false ∧ s.pushFrameUnimplemented = false := by
  have h2 : (s.sp + 2#16).getLsbD 0 = false := by
    rw [even_iff_mod] at h ⊢; rw [BitVec.toNat_add]; simp; omega
  have ha : (s.sp + 2#16).toNat = s.sp.toNat + 2 := by rw [BitVec.toNat_add]; simp; omega
  have ha4 : (s.sp + 4#16).toNat = s.sp.toNat + 4 := by rw [BitVec.toNat_add]; simp; omega
  obtain ⟨hc, hu⟩ := State.pushFrame_checks h (fun _ => placeOf_ne_sfr h hr) fun _ => placeOf_ne_sfr h2 (by omega)
  rw [ha, ha4] at hc
  rw [hd, hd2] at hu
  refine ⟨Bool.eq_false_iff.2 fun hb => ?_, Bool.eq_false_iff.2 fun hb => by simpa using hu.1 hb⟩
  rcases hc.1 hb with k | k | k | ⟨hA, k⟩
  any_goals omega
  have := hl hA
  omega

/-! ### Pops -/

/-- No check trips while the pops read implemented RAM below the limit and none borrows; they read the two words of
the frame. -/
theorem State.poppedFrame_ram {s : State} (h : s.sp.getLsbD 0 = false) (h0 : s.sp ≠ 0)
    (hr : 0x0800 ≤ (s.sp - 2#16).toNat)
    (hr4 : 0x0800 ≤ (s.sp - 4#16).toNat)
    (hl : s.splimArmed = true → (s.sp - 2#16).toNat ≤ s.splim.toNat ∧ (s.sp - 4#16).toNat ≤ s.splim.toNat)
    (hd : s.dataImpl (s.sp - 2#16) = true) (hd4 : s.dataImpl (s.sp - 4#16) = true) :
    s.popFrameBorrows = false ∧ s.popFrameStackBad = false ∧ s.popFrameUnimplemented = false ∧
      s.poppedFrame = (readWord s.data (s.sp - 2#16).toNat, readWord s.data (s.sp - 4#16).toNat) := by
  rw [even_iff_mod] at h
  have he : (s.sp - 2#16).getLsbD 0 = false := by rw [even_iff_mod]; bv_omega
  have he4 : (s.sp - 4#16).getLsbD 0 = false := by rw [even_iff_mod]; bv_omega
  have hbad : ∀ x : Word, 0x0800 ≤ x.toNat → (s.splimArmed = true → x.toNat ≤ s.splim.toNat) →
      s.stackBad x = false := by
    intro x hx hx2
    refine Bool.eq_false_iff.2 fun hb => ?_
    rcases (State.stackBad_iff s x).1 hb with k | ⟨hA, k⟩
    · omega
    · have := hx2 hA; omega
  have hb : s.popFrameBorrows = false := by
    unfold State.popFrameBorrows
    rw [decide_eq_false_iff_not, BitVec.lt_def]
    have : s.sp.toNat ≠ 0 := fun k => h0 (BitVec.eq_of_toNat_eq k)
    bv_omega
  have h1 : s.popFrameStackBad = false := by
    unfold State.popFrameStackBad
    rw [hbad _ hr fun k => (hl k).1, hbad _ hr4 fun k => (hl k).2, hb]; rfl
  have h2 : s.popFrameUnimplemented = false := by unfold State.popFrameUnimplemented; rw [hd, hd4]; rfl
  refine ⟨hb, h1, h2, ?_⟩
  unfold State.poppedFrame
  rw [h1, h2, State.readDataWord_ram he hr, State.readDataWord_ram he4 hr4]
  rfl

/-- When the pops of a return raise the stack error. -/
theorem State.popFrameStackBad_iff (s : State) :
    s.popFrameStackBad = true ↔
      ((s.sp - 2#16).toNat < 0x0800 ∨ (s.splimArmed = true ∧ s.splim.toNat < (s.sp - 2#16).toNat)) ∨
      ((s.sp - 4#16).toNat < 0x0800 ∨ (s.splimArmed = true ∧ s.splim.toNat < (s.sp - 4#16).toNat)) ∨
      (s.sp.toNat < 4 ∧ Config.freeBool s.draws = true) := by
  unfold State.popFrameStackBad State.popFrameBorrows
  simp only [Bool.or_eq_true, Bool.and_eq_true, State.stackBad_iff, decide_eq_true_eq, BitVec.lt_def, or_assoc]
  rfl

/-- W15 after a return is even. -/
theorem State.returnedSp_even (s : State) : evenWord s.returnedSp = s.returnedSp := by
  unfold State.returnedSp
  dsimp only
  split <;> exact evenWord_of_even (evenWord_even _)

/-- Where no pop raises a trap, W15 is down by 4 and raises none. -/
theorem State.returnedSp_of_ok {s : State} (h : s.popFrameStackBad = false) (hu : s.popFrameUnimplemented = false)
    (he : s.sp.getLsbD 0 = false) : s.returnedSp = s.sp - 4#16 ∧ s.returnStackBad = false := by
  have h4 : (s.sp - 4#16).getLsbD 0 = false := by rw [even_iff_mod] at he ⊢; bv_omega
  have hs : s.returnedSp = s.sp - 4#16 := by
    unfold State.returnedSp
    rw [h, hu, evenWord_of_even h4]; rfl
  refine ⟨hs, ?_⟩
  unfold State.returnStackBad
  rw [h, hs]
  unfold State.popFrameStackBad State.stackBad at h
  revert h
  cases decide (s.sp - 4#16 < Config.stackBase) <;> simp

/-- A return that takes W15 below 0x0800 by pops of implemented data leaves exactly that value. -/
theorem State.returnedSp_of_low {s : State} (he : s.sp.getLsbD 0 = false) (hu : s.popFrameUnimplemented = false)
    (h : (s.sp - 4#16).toNat < 0x0800) :
    s.returnedSp = s.sp - 4#16 := by
  have h4 : (s.sp - 4#16).getLsbD 0 = false := by rw [even_iff_mod] at he ⊢; bv_omega
  unfold State.returnedSp
  dsimp only
  rw [hu, evenWord_of_even h4, decide_eq_true (show s.sp - 4#16 < Config.stackBase from h)]
  simp

/-- The state after a return: W15, SRL, IPL3 and pc from the popped words, and nothing else but the draw
counter. -/
theorem State.returned_eq (s : State) :
    s.returned =
      { s with
        pc := frameReturn s.poppedFrame.1 s.poppedFrame.2
        w := s.w.set 15 s.returnedSp
        sr := s.sr.extractLsb' 8 8 ++ s.poppedFrame.1.extractLsb' 8 8
        corcon := setBitTo s.corcon 3 (s.poppedFrame.1.getLsbD 7)
        draws := s.returned.draws } := by
  unfold State.returned
  dsimp only
  split <;> simp [State.setSp, State.returnedSp_even]

/-- Everything a return can answer where both pops are implemented: the state after it, with STKERR set where it
raises the stack error. -/
theorem State.returnFromException_eq {s : State} (h : s.popFrameUnimplemented = false) :
    s.returnFromException =
      .next { s.returned with
        intcon1 := if s.returnStackBad then setBitTo s.intcon1 2 true else s.intcon1 } := by
  unfold State.returnFromException
  rw [h, State.returned_eq]
  cases s.returnStackBad <;> rfl

end Sys2Proof.Machine
end

