-- ==== Sys2Proof/Laws/Places.lean ====
section
/-! SUPPORT. What stands at each address of register space, whatever addresses the device gives its own registers. -/

namespace Sys2Proof.Machine

/-- A key that stands once in a list is looked up as what it stands with. -/
theorem lookup_of_mem {r : Sfr} {a : Nat} : ∀ {l : List (Nat × Sfr)}, (l.map Prod.fst).Nodup → (a, r) ∈ l →
    l.lookup a = some r
  | (b, q) :: rest, hn, hm => by
    rw [List.map_cons, List.nodup_cons] at hn
    rw [List.lookup_cons]
    rcases List.mem_cons.1 hm with h | h
    · cases h; simp
    · have : a ≠ b := by
        rintro rfl; exact hn.1 (List.mem_map.2 ⟨_, h, rfl⟩)
      rw [beq_false_of_ne this]; exact lookup_of_mem hn.2 h

/-- A key that does not stand in a list is not found. -/
theorem lookup_of_not_mem {a : Nat} : ∀ {l : List (Nat × Sfr)}, a ∉ l.map Prod.fst → l.lookup a = none
  | [], _ => rfl
  | (b, q) :: rest, h => by
    rw [List.map_cons, List.mem_cons, not_or] at h
    rw [List.lookup_cons, beq_false_of_ne h.1]; exact lookup_of_not_mem h.2

/-- What well-placed parameters `ADDR_*` satisfy. -/
theorem addressesOk_of_mem {m : Config.SfrAddresses} (hm : addressesOk m = true) {a : Nat} {r : Sfr}
    (h : (a, r) ∈ deviceSfrs m) :
    0x20 ≤ a ∧ a < 0x0800 ∧ a % 2 = 0 ∧ a ∉ tableSfrs.map Prod.fst ∧ ((deviceSfrs m).map Prod.fst).Nodup := by
  unfold addressesOk at hm
  simp only [Bool.and_eq_true, List.all_eq_true, decide_eq_true_eq, Bool.not_eq_true', List.contains_eq_mem,
    decide_eq_false_iff_not] at hm
  obtain ⟨⟨⟨h1, h2⟩, h3⟩, h4⟩ := hm.1 a (List.mem_map_of_mem (f := Prod.fst) h)
  exact ⟨h1, h2, h3, h4, hm.2⟩

/-- An even address of register space outside the working registers. -/
theorem placeOf_register_space (d : Config.Device) {a : Word} (h : a.getLsbD 0 = false) (h1 : 0x20 ≤ a.toNat)
    (h2 : a.toNat < 0x0800) :
    placeOf d a =
      match (tableSfrs ++ deviceSfrs d.addresses).lookup a.toNat with
      | some r => .sfr r
      | none => .undescribed := by
  unfold placeOf
  rw [evenWord_of_even h]
  dsimp only
  rw [if_neg (by omega)]
  exact if_neg (by unfold Config.ramBase; omega)

/-- At a parameter `ADDR_*` of a well-placed device stands its register. -/
theorem placeOf_own {d : Config.Device} (hd : addressesOk d.addresses = true) {a : Nat} {r : Sfr}
    (h : (a, r) ∈ deviceSfrs d.addresses) : placeOf d (BitVec.ofNat 16 a) = .sfr r := by
  obtain ⟨h1, h2, h3, h4, h5⟩ := addressesOk_of_mem hd h
  have ha : (BitVec.ofNat 16 a).toNat = a := by rw [BitVec.toNat_ofNat]; omega
  rw [placeOf_register_space d (by rw [even_iff_mod, ha]; exact h3) (by omega) (by omega), ha, List.lookup_append,
    lookup_of_not_mem h4, lookup_of_mem h5 h]
  rfl

/-- Where neither the table nor a parameter names an address of register space, no register of the spec stands. -/
theorem placeOf_undescribed {d : Config.Device} {a : Word} (h : a.getLsbD 0 = false) (h1 : 0x20 ≤ a.toNat)
    (h2 : a.toNat < 0x0800) (ht : a.toNat ∉ tableSfrs.map Prod.fst)
    (ho : a.toNat ∉ (deviceSfrs d.addresses).map Prod.fst) : placeOf d a = .undescribed := by
  rw [placeOf_register_space d h h1 h2, List.lookup_append, lookup_of_not_mem ht, lookup_of_not_mem ho]
  rfl

end Sys2Proof.Machine
end

