-- ==== Sys2Proof/Laws/Sources.lean ====
section
/-! SUPPORT. The interrupt sources: the bits that belong to them, and which request wins among them. -/

namespace Sys2Proof.Machine

/-- An implemented source has a flag bit and a priority field. -/
theorem implementsSource_bounds {d : Config.Device} {n : Nat} (h : implementsSource d n = true) :
    n ∈ Config.listedSources ∧ n / 16 < 3 ∧ n / 4 < 11 := by
  unfold implementsSource at h
  rw [Bool.and_eq_true, List.contains_iff_mem] at h
  refine ⟨h.1, ?_⟩
  have := h.1
  unfold Config.listedSources at this
  simp only [List.mem_cons, List.not_mem_nil, or_false] at this
  omega

/-- The mask of a flag register has the bits of the implemented sources. -/
theorem getLsbD_flagMask (d : Config.Device) (k i : Nat) (hi : i < 16) :
    (flagMask d k).getLsbD i = implementsSource d (16 * k + i) := by
  unfold flagMask
  simp only [List.range, List.range.loop, List.foldl, getLsbD_setBitTo]
  interval_cases i <;> simp

/-- One step of the priority mask, seen at one bit. -/
theorem getLsbD_priorityBits (m : Word) (c : Bool) (q : Nat) (i : Nat) (hi : i < 16) :
    (if c = true then m ||| 7#16 <<< (4 * q) else m).getLsbD i =
      (m.getLsbD i || (c && decide (4 * q ≤ i) && decide (i < 4 * q + 3))) := by
  cases c
  · simp
  · have h7 : ∀ j < 16, (7#16).getLsbD j = decide (j < 3) := by decide
    rw [if_pos rfl, BitVec.getLsbD_or, BitVec.getLsbD_shiftLeft]
    by_cases h : i < 4 * q
    · simp [h, Nat.not_le.2 h]
    · rw [h7 _ (by omega)]
      simp [h, hi, Nat.le_of_not_lt h]
      congr 1
      exact decide_eq_decide.2 (by omega)

/-- The mask of a priority register has the three bits of each implemented source. -/
theorem getLsbD_priorityMask (d : Config.Device) (j q i : Nat) (hq : q < 4) (hi : i < 3) :
    (priorityMask d j).getLsbD (4 * q + i) = implementsSource d (4 * j + q) := by
  unfold priorityMask
  simp only [List.range, List.range.loop, List.foldl]
  rw [getLsbD_priorityBits _ _ _ _ (by omega), getLsbD_priorityBits _ _ _ _ (by omega),
    getLsbD_priorityBits _ _ _ _ (by omega), getLsbD_priorityBits _ _ _ _ (by omega)]
  interval_cases q <;> interval_cases i <;> simp

/-- Bit 3 of a nibble, and every bit of a source the device lacks, is outside the mask. -/
theorem getLsbD_priorityMask_unused (d : Config.Device) (j b : Nat)
    (h : b % 4 = 3 ∨ implementsSource d (4 * j + b / 4) = false) : (priorityMask d j).getLsbD b = false := by
  by_cases hb : 16 ≤ b
  · exact BitVec.getLsbD_of_ge _ _ hb
  by_cases h3 : b % 4 = 3
  · unfold priorityMask
    simp only [List.range, List.range.loop, List.foldl]
    rw [getLsbD_priorityBits _ _ _ _ (by omega), getLsbD_priorityBits _ _ _ _ (by omega),
      getLsbD_priorityBits _ _ _ _ (by omega), getLsbD_priorityBits _ _ _ _ (by omega)]
    clear h
    interval_cases b <;> simp at h3 ⊢
  · rw [← Nat.div_add_mod b 4, getLsbD_priorityMask d j _ _ (by omega) (by omega), h.resolve_left h3]

/-- What the search through request numbers in rising order answers. -/
theorem topIrqOf_cases (s : State) (ipc : Vector Word 11) : ∀ l : List Nat, l.Pairwise (· < ·) →
    match topIrqOf s ipc l with
    | none => ∀ n ∈ l, (implementsSource s.device n && s.irqRequested ipc n) = false
    | some r => ∃ n ∈ l, r = ⟨n + 8, priorityIn ipc n⟩ ∧
        (implementsSource s.device n && s.irqRequested ipc n) = true ∧
        ∀ m ∈ l, (implementsSource s.device m && s.irqRequested ipc m) = true →
          priorityIn ipc m < priorityIn ipc n ∨ (priorityIn ipc m = priorityIn ipc n ∧ n ≤ m)
  | [], _ => by simp [topIrqOf]
  | n :: rest, h => by
    have ih := topIrqOf_cases s ipc rest (List.Pairwise.of_cons h)
    have hlt : ∀ m ∈ rest, n < m := fun m hm => List.rel_of_pairwise_cons h hm
    unfold topIrqOf
    dsimp only
    by_cases hn : (implementsSource s.device n && s.irqRequested ipc n) = true
    · rw [if_pos hn]
      cases hl : topIrqOf s ipc rest with
      | none =>
        rw [hl] at ih
        dsimp only at ih ⊢
        refine ⟨n, List.mem_cons_self, rfl, hn, fun m hm hq => ?_⟩
        rcases List.mem_cons.1 hm with rfl | hm
        · exact .inr ⟨rfl, le_refl _⟩
        · rw [ih m hm] at hq; cases hq
      | some r =>
        rw [hl] at ih
        obtain ⟨k, hk, rfl, hk2, hk3⟩ := ih
        dsimp only
        by_cases hp : priorityIn ipc n < priorityIn ipc k
        · rw [if_pos hp]
          refine ⟨k, List.mem_cons_of_mem _ hk, rfl, hk2, fun m hm hq => ?_⟩
          rcases List.mem_cons.1 hm with rfl | hm
          · exact .inl hp
          · exact hk3 m hm hq
        · rw [if_neg hp]
          refine ⟨n, List.mem_cons_self, rfl, hn, fun m hm hq => ?_⟩
          rcases List.mem_cons.1 hm with rfl | hm
          · exact .inr ⟨rfl, le_refl _⟩
          · have := hk3 m hm hq
            have := hlt m hm
            omega
    · rw [if_neg hn]
      have hn' : (implementsSource s.device n && s.irqRequested ipc n) = false := by simpa using hn
      cases hl : topIrqOf s ipc rest with
      | none =>
        rw [hl] at ih
        intro m hm
        rcases List.mem_cons.1 hm with rfl | hm
        · exact hn'
        · exact ih m hm
      | some r =>
        rw [hl] at ih
        obtain ⟨k, hk, e, hk2, hk3⟩ := ih
        refine ⟨k, List.mem_cons_of_mem _ hk, e, hk2, fun m hm hq => ?_⟩
        rcases List.mem_cons.1 hm with rfl | hm
        · rw [hn'] at hq; cases hq
        · exact hk3 m hm hq

end Sys2Proof.Machine
end

