-- ==== Sys2Proof/Tests/Slice0.lean ====
section
/-! SUPPORT. Tests: ill-formed terms, words written out from the encodings, the vectors of 95_test_vectors.md for one step
each, and for every statement with hypotheses a state and operands that meet them. -/

namespace Sys2Proof.Tests

open Sys2Proof.Machine

/-! ### Ill-formed terms -/

theorem test_goto_odd_target_is_ill_formed : (Instr.goto 0x101).wellFormed = false := by decide

theorem test_movWsF_odd_address_is_ill_formed : (Instr.movWsF 0 0x0085).wellFormed = false := by decide

theorem test_goto_even_target_is_well_formed : (Instr.goto 0x100).wellFormed = true := by decide

/-! ### Decoding: words of 95 section 2.13 -/

/-- DISI: 1111110000, then k. -/
theorem test_decode_disi : decodeTableWord 24 0b111111000000000000000011 = some (.disi 3) := by decide

/-- `DISI #16383` is the greatest operand. -/
theorem test_decode_disi_greatest : decodeTableWord 24 0xFC3FFF = some (.disi 16383) := by decide

theorem test_decode_retfie : decodeTableWord 24 0b000001100100000000000000 = some .retfie := by decide

theorem test_decode_reset : decodeTableWord 24 0b111111100000000000000000 = some .reset := by decide

theorem test_decode_pwrsav_sleep : decodeTableWord 24 0b111111100100000000000000 = some (.pwrsav .sleep) := by decide

theorem test_decode_pwrsav_idle : decodeTableWord 24 0b111111100100000000000001 = some (.pwrsav .idle) := by decide

/-- 0x040100, 0x000000. -/
theorem test_decode_goto : decodeTableWord 48 0x000000040100 = some (.goto 0x000100) := by decide

/-- 0x04FFFE, 0x00007F. -/
theorem test_decode_goto_top : decodeTableWord 48 0x00007F04FFFE = some (.goto 0x7FFFFE) := by decide

theorem test_decode_nop : decodeTableWord 24 0x00ABCD = some (.nop 0xABCD) := by decide

/-- MOV #k, Wd: 0010, then k, then d. -/
theorem test_decode_movLit : decodeTableWord 24 0b001000100100010001000000 = some (.movLit 0x2444 0) := by decide

/-- MOV Ws, f: 10001, then f without its bit 0, then s; 0x880520 is `MOV W0, 0x00A4`. -/
theorem test_decode_movWsF : decodeTableWord 24 0b100010000000010100100000 = some (.movWsF 0 0x00A4) := by decide

theorem test_decode_refuses : decodeTableWord 24 0xFC4000 = none ∧ decodeTableWord 24 0x064001 = none ∧
    decodeTableWord 48 0x000000040101 = none ∧ decodeTableWord 24 0x100000 = none := by decide

/-- A `GOTO` whose second word does not match is refused by name. -/
theorem test_decode_refuses_bad_goto :
    decode [0x040100, 0x000080] = .error (.badSecondWord 0x040100 0x000080) := by decide

/-! ### Helpers -/

/-- The answer is a next state that passes the test. -/
def passes (o : Answer) (p : State → Bool) : Bool :=
  match o with
  | .next t => p t
  | _ => false

theorem next_of_passes {o : Answer} {p : State → Bool} (h : passes o p = true) : ∃ t, o = .next t ∧ p t = true := by
  unfold passes at h
  split at h
  · exact ⟨_, rfl, h⟩
  · cases h

/-- The device of 95 part 3. -/
def smallDevice : Config.Device :=
  { Config.referenceDevice with prog := [(0, 0x1000)], data := [(0, 0x1000)] }

/-- A state of that device. -/
def small : State := { State.reset with device := smallDevice }

/-- A state with the stack pointer and one frame word pair below it. -/
def stacked (sp lo hi : Word) : State :=
  { State.reset with
    w := #v[0, 0, 0, 0, 0, 0, 0, 0, 0, 0, 0, 0, 0, 0, 0, sp]
    data := writeWord (writeWord [] (sp - 4#16).toNat lo) (sp - 2#16).toNat hi }

/-- A state with this stack pointer and an armed limit. -/
def limited (d : Config.Device) (sp splim : Word) : State :=
  { stacked sp 0 0 with device := d, data := [], splimArmed := true, splim := splim }

/-- A state with W0 set. -/
def withW0 (v : Word) : State := { State.reset with w := #v[v, 0, 0, 0, 0, 0, 0, 0, 0, 0, 0, 0, 0, 0, 0, 0x0800] }

/-- Timer 1 pending and enabled (vector A1 of 95 section 2.3). -/
def timer1 : State := { State.reset with ifs := #v[0x0008, 0, 0], iec := #v[0x0008, 0, 0] }

/-- A program location set. -/
def withProg (s : State) (a : Nat) (v : Word24) : State := { s with prog := writeProg s.prog a v }

/-- A turn that chooses nothing out of the ordinary. -/
def plainTurn : Turn := ⟨false, 0, false, false, false, false, none⟩

/-! ### One step of each instruction -/

/-- The example of 40 R131. -/
theorem test_disi : passes (exec (.disi 3) { State.reset with pc := 0x200 }) (fun t =>
    t.disicnt == 3 && t.intcon2 == 0x4000 && t.pc == 0x202) = true := by decide

/-- Vector G1. -/
theorem test_disi_zero : passes (exec (.disi 0) { State.reset with intcon2 := 0x4000, disicnt := 5 }) (fun t =>
    t.disicnt == 0 && t.intcon2 == 0) = true := by decide

/-- Vector F6, the example of 40 R135. -/
theorem test_retfie : passes (exec .retfie { stacked 0x0804 0x0106 0x4200 with sr := 0x0080 }) (fun t =>
    t.sp == 0x0800 && t.sr == 0x0042 && !t.ipl3 && t.pc == 0x000106) = true := by decide

/-- Vector F7. -/
theorem test_retfie_underflow : passes (exec .retfie (stacked 0x0802 0 0)) (fun t =>
    t.sp == 0x07FE && t.intcon1 == 0x0004) = true := by decide

/-- The example of 40 R138. -/
theorem test_reset : passes (exec .reset { timer1 with corcon := 0x0028, sr := 0x00A0, pc := 0x300 }) (fun t =>
    t.cpuIpl == 0 && t.pc == 0 && t.sp == 0x0800 && t.ifs == #v[0, 0, 0] && t.iec == #v[0, 0, 0]) = true := by decide

/-- Section 2.12. -/
theorem test_reset_priorities : passes (exec .reset { State.reset with ipc := #v[1, 2, 3, 4, 5, 6, 7, 1, 2, 3, 4] })
    (fun t => t.ipc == #v[0x4444, 0x4440, 0x4444, 0x0444, 0x4444, 0x0444, 0x4000, 0x4440, 0x0004, 0x4440, 0x0444]) =
    true := by decide

/-- The example of 40 R139. -/
theorem test_pwrsav : passes (exec (.pwrsav .idle) { State.reset with pc := 0x300 }) (fun t =>
    t.pmode == .idle && t.pc == 0x302) = true := by decide

/-- The example of 40 R140. -/
theorem test_goto : passes (exec (.goto 0x100) State.reset) (fun t => t.pc == 0x100 && t.intcon1 == 0) = true := by
  decide

/-- Vector T14 and program 4. -/
theorem test_goto_unimplemented : passes (exec (.goto 0x7FFFFE) small) (fun t =>
    t.pc == 0x7FFFFE && t.intcon1 == 0x0008) = true := by decide

/-- The example of 40 R141. -/
theorem test_nop : passes (exec (.nop 0) { State.reset with pc := 0x120 }) (fun t => t.pc == 0x122) = true := by decide

/-- The first instruction of program 1. -/
theorem test_movLit : passes (exec (.movLit 0x2444 0) { State.reset with pc := 0x100 }) (fun t =>
    t.getW 0 == 0x2444 && t.pc == 0x102) = true := by decide

/-- W15 keeps its bit 0 at 0; one below 0x0800 raises the stack error (10 R23, 42 R196). -/
theorem test_movLit_stack_pointer :
    passes (exec (.movLit 0x0901 15) State.reset) (fun t => t.sp == 0x0900 && t.intcon1 == 0) = true ∧
    passes (exec (.movLit 0x07FF 15) State.reset) (fun t => t.intcon1 == 0x0004 && t.pc == 2) = true := by decide

/-- Vector H16: IPC0 takes 0x7777 of 0xFFFF. -/
theorem test_movWsF_register : passes (exec (.movWsF 0 0x00A4) (withW0 0xFFFF)) (fun t =>
    regAt t.ipc 0 == 0x7777) = true := by decide

/-- 20 R85: the low byte lies at the even address. -/
theorem test_movWsF_ram : passes (exec (.movWsF 0 0x0900) (withW0 0x1234)) (fun t =>
    readByte t.data 0x0900 == 0x34 && readByte t.data 0x0901 == 0x12) = true := by decide

/-! ### The exception logic -/

/-- Vector E1. -/
theorem test_entry : passes (({ withProg State.reset 0x1A 0x000200 with pc := 0x106, sr := 0x0001 }).takeException 11 2)
    (fun t => readWord t.data 0x0800 == 0x0106 && readWord t.data 0x0802 == 0x0100 && t.sp == 0x0804 &&
      t.sr == 0x0041 && !t.ipl3 && t.inttreg == 0x0203 && t.pc == 0x000200) = true := by decide

/-- Vector E8 with the alternate table of E4: bits 23 and 0 of a vector are dropped. -/
theorem test_entry_alternate : passes (({ withProg State.reset 0x9A 0x800401 with intcon2 := 0x8000 }).takeException 11 2)
    (fun t => t.pc == 0x000400) = true := by decide

/-- Vector E6: a trap inside a trap handler. -/
theorem test_entry_trap : passes
    (({ withProg (stacked 0x0804 0 0) 0x08 0x000340 with
        sr := 0x0060, corcon := 0x0028, pc := 0x310, intcon1 := 0x0008 }).takeException 2 13)
    (fun t => readWord t.data 0x0804 == 0x0310 && readWord t.data 0x0806 == 0x6080 && t.sp == 0x0808 &&
      t.sr == 0x00A0 && t.corcon == 0x0028 && t.pc == 0x000340) = true := by decide

/-- Vectors A4, A13 and A20. -/
theorem test_arbitration :
    State.arbitrate { State.reset with ifs := #v[0x0009, 0, 0], iec := #v[0x0009, 0, 0] } State.reset.ipc = some ⟨8, 4⟩ ∧
    State.arbitrate { State.reset with intcon1 := 0x000C, corcon := 0x0028, sr := 0x00A0 } State.reset.ipc = none ∧
    State.arbitrate { State.reset with ifs := #v[0x4000, 0, 1], iec := #v[0x4000, 0, 1] }
      (State.reset.ipc.set 8 0x0005) = some ⟨40, 5⟩ := by decide

/-- Vector X1: the conflict reset is the CPU's next step. -/
theorem test_conflict :
    passes (({ State.reset with corcon := 0x0028, sr := 0x00C0, intcon1 := 0x0002 }).raiseAddressError)
      (fun t => t.conflictDue && t.pc == 0) = true ∧
    passes (({ State.reset with conflictDue := true, corcon := 0x0028, pc := 0x300, intcon1 := 0x000A }).cpuTurn plainTurn)
      (fun t => t.trapr && t.pc == 0 && t.intcon1 == 0 && !t.conflictDue) = true := by decide

/-- Vector X5: the fault of a hard trap at its own level. -/
theorem test_hard_trap_at_its_level :
    State.raiseAddressError { State.reset with corcon := 0x0028, sr := 0x00A0 } =
      .fault (.unacknowledgeableHardTrap 13) := rfl

/-- Vectors T9 and T10, and the bounds of either side. -/
theorem test_shift :
    (State.reset.shiftAcc .a 16 5).accA = 5 ∧ (State.reset.shiftAcc .a (-16) 5).accA = 5 ∧
    (State.reset.shiftAcc .a 16 5).intcon1 = 0 ∧ (State.reset.shiftAcc .a (-16) 5).intcon1 = 0 ∧
    (State.reset.shiftAcc .a 17 5).accA = 0 ∧ (State.reset.shiftAcc .a (-17) 5).accA = 0 ∧
    (State.reset.shiftAcc .a 17 5).intcon1 = 0x0090 ∧ (State.reset.shiftAcc .a (-17) 5).intcon1 = 0x0090 := by decide

/-- The example of 42 R195 at an address that the device lacks: the push is no stop, it raises the stack error, and W15 is
what it wrote. -/
theorem test_core_push_above_the_limit :
    let r := runFrom { stacked 0x1002 0 0 with device := smallDevice, splim := 0x1000, splimArmed := true } false
      [.writeWord .push 7]
    r.causes = [.stack] ∧ r.addressError = false ∧ r.writes = [.reg 15] := by decide

/-- 42 R196: a store of a value below 0x0800 to W15's address raises the stack error. -/
theorem test_core_store_to_the_stack_pointer :
    (runFrom State.reset false [.writeWord (.direct 0x001E) 0x0100]).causes = [.stack] ∧
    (runFrom State.reset false [.writeWord (.direct 0x001E) 0x0900]).causes = [] ∧
    (runFrom State.reset true [.writeWord (.direct 0x001E) 0x0100]).causes = [] := by decide

/-- 42 R196 and 92 D30: the W15 that is checked is the one that the instruction leaves. -/
theorem test_core_stack_pointer_is_checked_after_the_instruction :
    passes (runCore ⟨1, [.setW 15 0x0100, .setW 15 0x0900], .fallThrough 1⟩ State.reset)
      (fun t => t.intcon1 == 0 && t.sp == 0x0900) = true ∧
    (runFrom State.reset false [.setW 15 0x0900, .setW 15 0x0100]).causes = [.stack] := by decide

/-- The example of 42 R196: a pop at the bottom of the stack. -/
theorem test_core_pop_below_the_stack :
    passes (runCore ⟨1, [.readWord .pop 0], .fallThrough 1⟩ State.reset)
      (fun t => t.intcon1 == 0x0004 && t.sp == 0x07FE) = true := by decide

/-- The example of 42 R197: an access at W15 + 4 with W15 = 0xFFFE. -/
theorem test_core_address_wraps :
    passes (runCore ⟨1, [.readWord (.w15 4) 0], .fallThrough 1⟩ (stacked 0xFFFE 0 0))
      (fun t => t.intcon1 == 0x0004 && t.sp == 0xFFFE) = true := by decide

/-- 10 R25 and R28: SAB follows SA, and DL takes its level. -/
theorem test_core_flags :
    passes (runCore ⟨1, [.flags 0x2001, .doLevel 5], .fallThrough 1⟩ State.reset)
      (fun t => t.sr == 0x2401 && t.corcon == 0x0520) = true := by decide

/-- 60 R247, 70 R321: a late entry is at a boundary where arbitration returned none, and the next one may defer. -/
theorem test_late_entry_leaves_the_skid_fresh :
    passes (({ State.reset with irqSkid := .deferred 11 4 } : State).cpuTurn { plainTurn with lateEntry := true })
      (fun t => t.irqSkid == .fresh && t.ipl == 4) = true ∧
    passes (({ timer1 with irqSkid := .deferred 11 4 } : State).cpuTurn plainTurn) (fun t => t.irqSkid == .used) = true := by
  decide

/-- 70 R331: a stall adds nothing to the three cycles of `RETFIE`. -/
theorem test_retfie_takes_three_cycles :
    instrCycles Config.referenceDevice.cycles 5 .retfie = 3 ∧
      instrCycles Config.referenceDevice.cycles 5 (.nop 0) = 6 := by decide

/-- Vectors W1 and W3: a priority of 0 does not wake the CPU. -/
theorem test_wake_up :
    passes (({ timer1 with pmode := .idle }).cpuTurn plainTurn) (fun t => t.pmode == .run) = true ∧
    passes (({ timer1 with pmode := .idle, ipc := timer1.ipc.set 0 0x0444 }).cpuTurn plainTurn)
      (fun t => t.pmode == .idle) = true := by decide

/-- The word at the pc is fetched and run as the first step after reset. -/
theorem test_first_step : passes (step (State.reset.withFetchWord 48 0x000000040100)) (fun t => t.pc == 0x100) = true := by
  decide

/-! ### States and operands that meet the hypotheses of the statements -/

theorem witness_DecodeOfEncodeIsTheInstruction :
    (Instr.goto 0x7FFFFE).wellFormed = true ∧ (Instr.movWsF 15 0xFFFE).wellFormed = true := by decide

theorem witness_EncodeOfDecodeIsTheWords : decode [0x040100, 0x00007F, 0x000000] = .ok (.goto 0x7F0100, [0]) := by decide

theorem witness_WordsOfNoRowAreRefused :
    let w := 0x100000#24
    let s := withProg State.reset 0 w
    (w &&& 0xFFC000#24 ≠ 0xFC0000#24 ∧ w ≠ 0x064000#24 ∧ w ≠ 0xFE0000#24 ∧ w &&& 0xFFFFFE#24 ≠ 0xFE4000#24 ∧
      w &&& 0xFF0001#24 ≠ 0x040000#24 ∧ w &&& 0xFF0000#24 ≠ 0x000000#24 ∧ w &&& 0xF00000#24 ≠ 0x200000#24 ∧
      w &&& 0xF80000#24 ≠ 0x880000#24) ∧
    s.progImpl s.pc.toNat = true ∧ readProg s.prog s.pc.toNat = w ∧ plainTurn.core = none := by decide

/-- The highest pc from which `pc + 2` is in program space. -/
theorem witness_DisiLoadsTheCount : ({ State.reset with pc := 0x7FFFFC } : State).pc.toNat + 2 < 0x800000 := by decide

theorem witness_PwrsavEntersTheMode : ({ State.reset with pc := 0x7FFFFC } : State).pc.toNat + 2 < 0x800000 := by decide

theorem witness_NopAdvancesThePc : ({ State.reset with pc := 0x7FFFFC } : State).pc.toNat + 2 < 0x800000 := by decide

/-- W15 is given a value below the stack bound and one at it. -/
theorem witness_MovLitWritesTheRegister : ({ State.reset with pc := 0x7FFFFC } : State).pc.toNat + 2 < 0x800000 ∧
    (0x07FF#16).toNat < 0x0800 ∧ ¬(0x0800#16).toNat < 0x0800 := by decide

/-- Both pops of a return are in implemented data RAM and within the stack checks. -/
abbrev popsInRam (s : State) : Prop :=
  s.sp.getLsbD 0 = false ∧ 0x0800 ≤ (s.sp - 2#16).toNat ∧ 0x0800 ≤ (s.sp - 4#16).toNat ∧
    (s.splimArmed = true → (s.sp - 2#16).toNat ≤ s.splim.toNat ∧ (s.sp - 4#16).toNat ≤ s.splim.toNat) ∧
    s.dataImpl (s.sp - 2#16) = true ∧ s.dataImpl (s.sp - 4#16) = true

/-- A frame just below the limit, and W15 = 0x0000. -/
theorem witness_RetfieRestoresTheFrame :
    popsInRam { stacked 0x0804 0x0106 0x4200 with splimArmed := true, splim := 0x0802#16 } ∧
      popsInRam { State.reset with w := #v[0, 0, 0, 0, 0, 0, 0, 0, 0, 0, 0, 0, 0, 0, 0, 0] } := by decide

theorem witness_RetfieOffTheStackRaisesStackError :
    let off : State → Prop := fun s => s.sp.getLsbD 0 = false ∧
      ((s.sp - 2#16).toNat < 0x0800 ∨ (s.sp - 4#16).toNat < 0x0800 ∨
        (s.splimArmed = true ∧ (s.splim.toNat < (s.sp - 2#16).toNat ∨ s.splim.toNat < (s.sp - 4#16).toNat))) ∧
      s.dataImpl (s.sp - 2#16) = true ∧ s.dataImpl (s.sp - 4#16) = true
    off (stacked 0x0802 0 0) ∧ off { stacked 0x0804 0 0 with splimArmed := true, splim := 0x0800#16 } := by decide

/-- A pop above the implemented memory with STKERR 0 and 1, one that is also above the limit, pops below 0x0800, and pops
that borrow. -/
theorem witness_RetfieFromUnimplementedDataRaisesAddressError :
    let fails : State → Prop := fun s =>
      s.sp.getLsbD 0 = false ∧ (s.dataImpl (s.sp - 2#16) = false ∨ s.dataImpl (s.sp - 4#16) = false)
    (fails (limited smallDevice 0x1002 0xFFFE) ∧ (limited smallDevice 0x1002 0xFFFE).trapFlag .stack = false) ∧
      (let s := { limited smallDevice 0x1002 0xFFFE with intcon1 := 0x0004 }; fails s ∧ s.trapFlag .stack = true) ∧
      (fails (limited smallDevice 0x1004 0x0FFE) ∧ (0x0FFE#16).toNat < (0x1004#16 - 2#16).toNat) ∧
      (fails (limited { smallDevice with data := [(0x0800, 0x1000)] } 0x0802 0xFFFE) ∧
        (0x0802#16 - 4#16).toNat < 0x0800) ∧
      fails (limited smallDevice 0x0000 0xFFFE) := by decide

/-- Implemented sources, one that the device lacks, and the unused bits of a nibble. -/
theorem witness_ResetInstructionResetsTheDevice :
    implementsSource State.reset.device 0 = true ∧ implementsSource State.reset.device 42 = true ∧
      implementsSource State.reset.device (4 * 10 + 15 / 4) = false ∧ 3 % 4 = 3 ∧ 15 % 4 = 3 ∧
      State.reset.device.sources = Config.listedSources := by decide

theorem witness_GotoLoadsThePc :
    (Instr.goto 0x0FFE).wellFormed = true ∧ small.progImpl (0x0FFE#23).toNat = true ∧
    (Instr.goto 0x1000).wellFormed = true ∧ small.progImpl (0x1000#23).toNat = false ∧
    (let s := { small with corcon := 0x0028, sr := 0x0080 }
     s.progImpl (0x1000#23).toNat = false ∧ s.trapFlag .oscillator = false ∧ s.cpuIpl < 13) := by decide

theorem witness_MovWsFCompletesAtEveryImplementedAddress :
    (Instr.movWsF 0 0x0FFE).wellFormed = true ∧ small.dataImpl 0x0FFE = true ∧ small.pc.toNat + 2 < 0x800000 := by decide

theorem witness_MovWsFStoresOneWordInRam :
    (Instr.movWsF 0 0x0800).wellFormed = true ∧ small.dataImpl 0x0800 = true ∧ 0x0800 ≤ (0x0800#16).toNat ∧
      Memory.wf small.data = true := by decide

theorem witness_MovWsFToUnimplementedDataIsRefused :
    (Instr.movWsF 0 0x1000).wellFormed = true ∧ small.dataImpl 0x1000 = false := by decide

/-- W15 is given a value below the stack bound and one at it. -/
theorem witness_MovWsFWritesWorkingRegisters :
    State.reset.dataImpl (BitVec.ofNat 16 (2 * (0#4).toNat)) = true ∧
      State.reset.dataImpl (BitVec.ofNat 16 (2 * (15#4).toNat)) = true ∧
      ((withW0 0x07FF).getW 0).toNat < 0x0800 ∧ ¬((withW0 0x0800).getW 0).toNat < 0x0800 := by decide

/-- An even implemented address of register space. -/
abbrev inRegisterSpace (f : Word) : Prop :=
  (Instr.movWsF 0 f).wellFormed = true ∧ State.reset.dataImpl f = true ∧ 0x0020 ≤ f.toNat ∧ f.toNat < 0x0800

theorem witness_MovWsFElsewhereInRegisterSpace :
    addressesOk State.reset.device.addresses = true ∧ inRegisterSpace 0x0742 ∧ inRegisterSpace 0x0022 ∧
    inRegisterSpace 0x07FE ∧
    (let m := State.reset.device.addresses
     m.osccon = (0x0742#16).toNat ∧ (0x0022#16).toNat ∉ [m.sr, m.corcon, m.disicnt, m.splim, m.rcon, m.osccon] ∧
      (0x07FE#16).toNat ∉ [m.sr, m.corcon, m.disicnt, m.splim, m.rcon, m.osccon] ∧
      (0x0022#16).toNat < 0x0080 ∧ 0x00B8 < (0x07FE#16).toNat ∧ 0x07FE#16 ≠ 0x00E0#16) := by decide

/-- A state whose device has the default addresses. -/
abbrev addressed (s : State) (a : Nat) : Prop :=
  addressesOk s.device.addresses = true ∧ s.dataImpl (BitVec.ofNat 16 a) = true

/-- NSTDIS 0 and 1. -/
theorem witness_WriteToSrGatesIpl :
    addressed State.reset State.reset.device.addresses.sr ∧ State.reset.nstdis = false ∧
      State.nstdis { State.reset with intcon1 := 0x8000 } = true := by decide

theorem witness_WriteToCorconClearsIpl3 :
    addressed State.reset State.reset.device.addresses.corcon ∧ 0x18F7#16 &&& (1#16 <<< 0) ≠ 0 ∧ 0x18F7#16 &&& (1#16 <<< 12) ≠ 0 ∧
      0x18F7#16 &&& (1#16 <<< 15) = 0 := by decide

/-- Vectors H9 and H10, and a written 1. -/
theorem witness_WriteToIntcon1KeepsMathErr :
    State.reset.dataImpl 0x0080#16 = true ∧ ((withW0 0x0400).getW 0).getLsbD 4 = false ∧
      ((withW0 0x0410).getW 0).getLsbD 4 = true := by decide

theorem witness_WriteToIntcon2LeavesDisi : State.reset.dataImpl 0x0082#16 = true := by decide

theorem witness_WriteToFlagsTakesTheWrittenBits :
    ∀ k : Fin 3, State.reset.dataImpl (BitVec.ofNat 16 (0x84 + 2 * k.val)) = true := by decide

theorem witness_WriteToEnablesTakesTheWrittenBits :
    ∀ k : Fin 3, State.reset.dataImpl (BitVec.ofNat 16 (0x94 + 2 * k.val)) = true := by decide

theorem witness_WriteToPrioritiesTakesTheWrittenFields :
    ∀ j : Fin 11, State.reset.dataImpl (BitVec.ofNat 16 (0xA4 + 2 * j.val)) = true := by decide

theorem witness_WriteToInttregChangesNothing : State.reset.dataImpl 0x00E0#16 = true := by decide

/-- With a `DISI` active and without one. -/
theorem witness_WriteToDisicntNeverDisables :
    addressed State.reset State.reset.device.addresses.disicnt ∧ State.reset.disiActive = false ∧
      ({ State.reset with intcon2 := 0x4000, disicnt := 5 } : State).disiActive = true := by decide

theorem witness_WriteToSplimArmsTheCheck : addressed State.reset State.reset.device.addresses.splim := by decide

theorem witness_WriteToRconClearsTrapr : addressed State.reset State.reset.device.addresses.rcon := by decide

theorem witness_OnlyRetfieCanSetIpl3 : Instr.movWsF 0 0x0044 ≠ .retfie ∧
    ∃ t, exec (.movWsF 0 0x0044) { withW0 0x0028 with corcon := 0x0028 } = .next t ∧ t.ipl3 = true :=
  ⟨by decide, next_of_passes (p := fun t => t.ipl3) (by decide)⟩

theorem witness_NestingDisabledFreezesIpl : Instr.movWsF 0 0x0042 ≠ .retfie ∧
    ({ withW0 0 with sr := 0x00E0, intcon1 := 0x8000 } : State).nstdis = true ∧
    ∃ t, exec (.movWsF 0 0x0042) { withW0 0 with sr := 0x00E0, intcon1 := 0x8000 } = .next t ∧ (t.ipl == 7) = true :=
  ⟨by decide, by decide, next_of_passes (p := fun t => t.ipl == 7) (by decide)⟩

/-- A count of 0, 1 and 2, and both soft traps requested. -/
theorem witness_TickCountsDisicntDown :
    (let s := { State.reset with intcon1 := 0x0014 }
     s.intcon1.getLsbD 2 = true ∧ s.intcon1.getLsbD 4 = true ∧ s.cpuIpl < 11) ∧
    State.reset.disicnt = 0 ∧ ({ State.reset with disicnt := 1 } : State).disicnt ≠ 0 ∧
      ({ State.reset with disicnt := 2 } : State).disicnt ≠ 1 := by decide

/-- Vectors G3 and G4 have k = 5. -/
theorem witness_DisiLastsItsCount : ∃ t, exec (.disi 5) State.reset = .next t ∧
    ((t.ticks 3).disicnt == 2 && (t.ticks 3).disiActive && !(t.ticks 5).disiActive) = true :=
  next_of_passes (p := fun t => (t.ticks 3).disicnt == 2 && (t.ticks 3).disiActive && !(t.ticks 5).disiActive) (by decide)

/-- Vectors A1 and A11. -/
theorem witness_ArbitrationPicksTheWinner :
    timer1.arbitrate timer1.ipc = some ⟨11, 4⟩ ∧
      State.arbitrate { timer1 with intcon1 := 0x0010 } timer1.ipc = some ⟨4, 11⟩ := by decide

/-- Vector A9. -/
theorem witness_DisiMasksLevelsOneToSix :
    let s := { timer1 with intcon2 := 0x4000, ipc := timer1.ipc.set 0 0x7444 }
    s.disiActive = true ∧ s.arbitrate s.ipc = some ⟨11, 7⟩ := by decide

/-- Vectors A3 and A14. -/
theorem witness_ArbitrationObeysTheCpuPriority :
    State.arbitrate { timer1 with sr := 0x0060 } timer1.ipc = some ⟨11, 4⟩ ∧
      (let s := { State.reset with sr := 0x00E0, intcon1 := 0x0004 }
       s.arbitrate s.ipc = some ⟨3, 12⟩ ∧ 7 ≤ s.cpuIpl) := by decide

/-- No register of the spec stands at an address. -/
def noRegister (d : Config.Device) (a : Word) : Bool :=
  match placeOf d a with
  | .sfr _ => false
  | _ => true

theorem not_sfr {d : Config.Device} {a : Word} (h : noRegister d a = true) (r : Sfr) : placeOf d a ≠ .sfr r := by
  intro hr
  rw [noRegister, hr] at h
  cases h

/-- An interrupt of the least and of the greatest vector and level and two traps have their vectors implemented. -/
abbrev vectored (s : State) : Prop :=
  ∀ p ∈ [(8, 1), (61, 7), (1, 14), (4, 11)],
    p.1 < 62 ∧ p.2 < 16 ∧ s.progImpl ((if s.altivt = true then 0x000084 else 0x000004) + 2 * p.1) = true

/-- A state from which they can be entered. -/
def enters (s : State) : Prop :=
  vectored s ∧ Memory.wf s.data = true ∧ s.sp.getLsbD 0 = false ∧
  (s.dataImpl s.sp = true → ∀ r, placeOf s.device s.sp ≠ .sfr r) ∧
  (s.dataImpl (s.sp + 2#16) = true → ∀ r, placeOf s.device (s.sp + 2#16) ≠ .sfr r)

theorem enters_of {s : State} (hv : vectored s) (hm : Memory.wf s.data = true) (h : s.sp.getLsbD 0 = false)
    (hr : noRegister s.device s.sp = true ∧ noRegister s.device (s.sp + 2#16) = true) : enters s :=
  ⟨hv, hm, h, fun _ => not_sfr hr.1, fun _ => not_sfr hr.2⟩

/-- The stack at its lowest and at its limit, a push above the limit, W15 = 0xFFFC, a push off the implemented memory,
pushes to register space that the spec does not describe, and entries that go on with a push off the stack. -/
theorem witness_ExceptionEntrySavesAndRaises :
    enters (limited Config.referenceDevice 0x0800 0x0802) ∧
    (enters (limited Config.referenceDevice 0x0802 0x0802) ∧ (0x0802#16).toNat < (0x0802#16 + 2#16).toNat) ∧
    (enters (limited Config.referenceDevice 0xFFFC 0xFFFE) ∧ (0xFFFC#16 + 4#16).toNat < 0x0800) ∧
    (enters (limited smallDevice 0x0FFE 0xFFFE) ∧ (limited smallDevice 0x0FFE 0xFFFE).dataImpl 0x0FFE = true ∧
      (limited smallDevice 0x0FFE 0xFFFE).dataImpl 0x1000 = false) ∧
    (enters (limited Config.referenceDevice 0x07FC 0xFFFE) ∧ (0x07FC#16).toNat < 0x0800) ∧
    (∃ t, (limited Config.referenceDevice 0x07FC 0xFFFE).takeException 11 2 = .next t) ∧
    (∃ t, (limited Config.referenceDevice 0x0804 0x0802).takeException 11 2 = .next t) :=
  ⟨enters_of (by decide) (by decide) (by decide) (by decide),
    ⟨enters_of (by decide) (by decide) (by decide) (by decide), by decide⟩,
    ⟨enters_of (by decide) (by decide) (by decide) (by decide), by decide⟩,
    ⟨enters_of (by decide) (by decide) (by decide) (by decide), by decide, by decide⟩,
    ⟨enters_of (by decide) (by decide) (by decide) (by decide), by decide⟩,
    (next_of_passes (p := fun _ => true) (by decide)).imp fun _ h => h.1,
    (next_of_passes (p := fun _ => true) (by decide)).imp fun _ h => h.1⟩

/-- The state right after the entry is one from which `RETFIE` undoes it. -/
theorem witness_RetfieUndoesTheEntry :
    let s := { State.reset with pc := 0x106, sr := 0x0001 }
    Memory.wf s.data = true ∧ s.sp.getLsbD 0 = false ∧ s.pc.getLsbD 0 = false ∧ 0x0800 ≤ s.sp.toNat ∧
      s.sp.toNat + 4 < 0x10000 ∧ (s.splimArmed = true → s.sp.toNat + 2 ≤ s.splim.toNat) ∧ s.dataImpl s.sp = true ∧
      s.dataImpl (s.sp + 2#16) = true ∧ ∃ t u : State, s.takeException 11 2 = .next t ∧ u.sp = t.sp ∧
      (∀ a, s.sp.toNat ≤ a → a < s.sp.toNat + 4 → readByte u.data a = readByte t.data a) ∧
      u.splimArmed = t.splimArmed ∧ u.splim = t.splim ∧ u.device = t.device := by
  obtain ⟨t, h, -⟩ := next_of_passes (o := State.takeException { State.reset with pc := 0x106, sr := 0x0001 } 11 2)
    (p := fun _ => true) (by decide)
  exact ⟨by decide, by decide, by decide, by decide, by decide, by decide, by decide, by decide, t, t, h, rfl,
    fun _ _ _ => rfl, rfl, rfl, rfl⟩

/-- Vectors X1 and X2 (the conflict by flag and by level), X5, X4. -/
theorem witness_HardTrapIsSettledByItsLevel :
    (Trap.address.level < Trap.oscillator.level ∧
      ({ State.reset with intcon1 := 0x000A } : State).trapFlag .oscillator = true) ∧
    (let s := { State.reset with corcon := 0x0028, sr := 0x00C0 }; s.ipl3 = true ∧ Trap.address.level < s.cpuIpl) ∧
    (let s := { State.reset with corcon := 0x0028, sr := 0x00A0, intcon1 := 0x0008 }
     s.hardTrapConflict .address = false ∧ s.conflictDue = false ∧ s.cpuIpl = Trap.address.level) ∧
    (let s := { State.reset with corcon := 0x0028, sr := 0x00A0, intcon1 := 0x0002 }
     s.hardTrapConflict .oscillator = false ∧ s.cpuIpl ≠ Trap.oscillator.level) := by decide

theorem witness_HardTrapsAreEnteredAtOnce :
    let s := { State.reset with intcon1 := 0x000C }
    s.pmode = .run ∧ s.conflictDue = false ∧ Trap.address.hard = true ∧ s.trapRequested .address = true ∧
      ∀ x ∈ Trap.all, s.trapRequested x = true → x.level ≤ Trap.address.level := by decide

theorem witness_DeferredRequestsAreEnteredNext :
    timer1.pmode = .run ∧ timer1.conflictDue = false ∧ timer1.ipcStale = none ∧
      State.arbitrate { timer1 with irqSkid := .deferred 11 4 } timer1.ipc = some ⟨11, 4⟩ ∧
      State.arbitrate { timer1 with irqSkid := .woken } timer1.ipc = some ⟨11, 4⟩ ∧
      (timer1.irqSkid = .fresh ∧ timer1.arbitrate timer1.ipc = some ⟨11, 4⟩) ∧
      (let s := { State.reset with irqSkid := .deferred 11 4 }
       s.pmode = .run ∧ s.conflictDue = false ∧ s.ipcStale = none ∧ s.arbitrate s.ipc = none ∧
        ({ plainTurn with lateEntry := true } : Turn).lateEntry = true) ∧
      ∃ u, State.takeException (State.atBoundary { State.reset with irqSkid := .deferred 11 4 }) 11 4 = .next u :=
  ⟨by decide, by decide, by decide, by decide, by decide, by decide, by decide,
    (next_of_passes (p := fun _ => true) (by decide)).imp fun _ h => h.1⟩

theorem witness_SoftTrapsWaitAtMostTwoCycles :
    let s := { State.reset with intcon1 := 0x0014, stkAge := 2, mathAge := 2 }
    s.pmode = .run ∧ s.conflictDue = false ∧ s.trapRequested .stack = true ∧ s.trapRequested .math = true ∧ 2 ≤ s.stkAge ∧ 2 ≤ s.mathAge := by
  decide

theorem witness_IrqEventSetsTheFlag :
    ({ State.reset with inputs := [.irq 42] } : State).inputs = .irq 42 :: [] ∧
      implementsSource State.reset.device 42 = true := by decide

/-- Vectors P1 and P5, P2 and P4, and a device without the source. -/
theorem witness_PinEdgeRequestsOnTheSelectedEdge :
    State.reset.edgePolarity 0 = false ∧ ({ State.reset with intcon2 := 0x0004 } : State).edgePolarity 2 = true ∧
      implementsSource State.reset.device 0 = true ∧ implementsSource State.reset.device 17 = true ∧
      implementsSource { Config.referenceDevice with sources := [] } 0 = false := by decide

/-- A CPU priority of 13, 14 and 15. -/
theorem witness_OscFailSetsItsFlags :
    ({ State.reset with corcon := 0x0028, sr := 0x00A0 } : State).cpuIpl = 13 ∧
      (let s := { State.reset with corcon := 0x0028, sr := 0x00C0 }; s.cpuIpl = 14 ∧ s.conflictDue = false) ∧
      ({ State.reset with corcon := 0x0028, sr := 0x00E0 } : State).cpuIpl = 15 := by decide

/-- Vectors W1 and W4. -/
theorem witness_WakeUpNeedsAnEnabledSource :
    let s := { timer1 with pmode := .idle }
    let u := { timer1 with pmode := .sleep, iec := #v[0, 0, 0] }
    s.pmode ≠ .run ∧ s.conflictDue = false ∧ u.conflictDue = false ∧ (implementsSource s.device 3 = true ∧ s.irqFlag 3 = true ∧ s.irqEnable 3 = true ∧
      1 ≤ s.irqPriority 3) ∧
    u.pmode ≠ .run ∧ u.wakeRequest = false ∧ ∀ x ∈ Trap.all, u.trapRequested x = false := by decide

/-- Every shift value at the bounds. -/
theorem witness_ShiftBeyondSixteenTraps :
    (16 < (17 : Int) ∨ (17 : Int) < -16) ∧ (16 < (-17 : Int) ∨ (-17 : Int) < -16) ∧
      (-16 ≤ (16 : Int) ∧ (16 : Int) ≤ 16) ∧ (-16 ≤ (-16 : Int) ∧ (-16 : Int) ≤ 16) := by decide

/-- 39-bit saturation, where a carry out of bit 31 still overflows and is trapped; an overflow with its trap disabled; no
overflow; a trapped catastrophic overflow with OVATE 0 and 1. -/
theorem witness_AccumulatorOverflowTrapsWhenEnabled :
    (let s := { State.reset with corcon := 0x0090, intcon1 := 0x0500 }
     passes (runCore ⟨1, [.accResult .a 1 true true], .fallThrough 1⟩ s)
      (fun t => t.intcon1 == 0x4510 && t.sr == 0x8800) = true) ∧
    passes (runCore ⟨1, [.accResult .b 1 true false], .fallThrough 1⟩ State.reset)
      (fun t => t.intcon1 == 0 && t.sr == 0x4800 && t.accB == 1) = true ∧
    passes (runCore ⟨1, [.accResult .a 1 false false], .fallThrough 1⟩ { State.reset with sr := 0x8800 })
      (fun t => t.intcon1 == 0 && t.sr == 0 && t.accA == 1) = true ∧
    (let s := { State.reset with intcon1 := 0x0100 }
     s.corcon.getLsbD 7 = false ∧ s.intcon1.getLsbD 8 = true ∧ s.intcon1.getLsbD 10 = false ∧
      passes (runCore ⟨1, [.accResult .a 1 false true], .fallThrough 1⟩ s) (fun t => t.intcon1 == 0x1110) = true) ∧
    (let s := { State.reset with intcon1 := 0x0500 }
     s.corcon.getLsbD 7 = false ∧ s.intcon1.getLsbD 8 = true ∧ s.intcon1.getLsbD 10 = true) := by decide

/-- A zero divisor; another one with results at 0x0800 and below it for W15. -/
theorem witness_DivideByZeroTraps :
    passes (runCore ⟨1, [.divide 0 1 2 0 1], .fallThrough 1⟩ State.reset) (fun t => t.intcon1 == 0x0050) = true ∧
    passes (runCore ⟨1, [.divide 3 0x0801 2 15 1], .fallThrough 1⟩ State.reset)
      (fun t => t.intcon1 == 0 && t.sp == 0x0800 && t.getW 1 == 2) = true ∧
    passes (runCore ⟨1, [.divide 3 0x07FF 0x0801 15 15], .fallThrough 1⟩ State.reset)
      (fun t => t.intcon1 == 0 && t.sp == 0x0800) = true ∧
    (runFrom State.reset false [.divide 3 0x07FF 2 15 1]).causes = [.stack] ∧
    (0x07FF#16).toNat < 0x0800 ∧ ¬(0x0800#16).toNat < 0x0800 := by decide

/-- Vector T12, at the greatest CPU priority it holds for. -/
theorem witness_MisalignedReadInhibitsTheWrites :
    let s := { State.reset with corcon := 0x0028, sr := 0x0080 }
    (0x0901#16).getLsbD 0 = true ∧ (0#4) ≠ 15#4 ∧ s.trapFlag .oscillator = false ∧ s.cpuIpl < 13 := by decide

theorem witness_StepRunsTheDecodedInstruction :
    let s := State.reset.withFetchWord 24 0xFC0003
    let u := { s with inputs := [.cpu plainTurn] }
    s.pmode = .run ∧ s.conflictDue = false ∧ s.ipcStale = none ∧ s.arbitrate s.ipc = none ∧ s.irqSkid = .fresh ∧
      s.progImpl s.pc.toNat = true ∧ decode s.fetchWords = .ok (.disi 3, [0]) ∧ s.inputs = [] ∧
      u.inputs = .cpu plainTurn :: [] ∧ plainTurn.oscFail = false := by decide

/-- A step that goes on. -/
theorem step_goes_on : ∃ t, step (State.reset.withFetchWord 24 0xFC0003) = .next t ∧ (t.disicnt == 3) = true :=
  next_of_passes (p := fun t => t.disicnt == 3) (by decide)

theorem witness_StepKeepsMemoryCanonical : (State.reset.withFetchWord 24 0xFC0003).memoryOk ∧
    ∃ t, step (State.reset.withFetchWord 24 0xFC0003) = .next t :=
  ⟨by decide, step_goes_on.imp fun _ h => h.1⟩

theorem witness_StepKeepsPcAndStackPointerEven : (State.reset.withFetchWord 24 0xFC0003).evenOk ∧
    ∃ t, step (State.reset.withFetchWord 24 0xFC0003) = .next t :=
  ⟨by decide, step_goes_on.imp fun _ h => h.1⟩

theorem witness_StepKeepsReservedBitsZero : (State.reset.withFetchWord 24 0xFC0003).reservedOk ∧
    (State.reset.withFetchWord 24 0xFC0003).accStatusOk ∧ ∃ t, step (State.reset.withFetchWord 24 0xFC0003) = .next t :=
  ⟨by decide, by decide, step_goes_on.imp fun _ h => h.1⟩

theorem witness_StepKeepsUnimplementedSourceBitsZero : (State.reset.withFetchWord 24 0xFC0003).sourcesOk ∧
    ∃ t, step (State.reset.withFetchWord 24 0xFC0003) = .next t :=
  ⟨by decide, step_goes_on.imp fun _ h => h.1⟩

theorem witness_StepKeepsTheDisiCount : (State.reset.withFetchWord 24 0xFC0003).disiOk ∧
    ∃ t, step (State.reset.withFetchWord 24 0xFC0003) = .next t :=
  ⟨by decide, step_goes_on.imp fun _ h => h.1⟩

theorem witness_StepNeverWritesProgramMemory : ∃ t, step (State.reset.withFetchWord 24 0xFC0003) = .next t :=
  step_goes_on.imp fun _ h => h.1

end Sys2Proof.Tests
end

section
/-! PROOFS. The invariants of the state: each is kept by every elementary update, so `Kept.step` gives it for every
step; and no instruction but `RETFIE` sets IPL3. -/

namespace Sys2Proof.Machine

/-! ### Updates of a word seen through a mask -/

/-- A bit outside a mask is invisible through it. -/
theorem setBitTo_and_of_clear (v : Word) {m : Word} {i : Nat} (b : Bool) (h : m.getLsbD i = false) :
    setBitTo v i b &&& m = v &&& m := by
  apply BitVec.eq_of_getLsbD_eq
  intro j _
  rw [BitVec.getLsbD_and, BitVec.getLsbD_and, getLsbD_setBitTo]
  by_cases hij : i = j
  · rw [← hij, h, Bool.and_false, Bool.and_false]
  · rw [if_neg fun hc => hij hc.1]

/-- A write to bits outside a mask is invisible through it. -/
theorem merge_and_of_disjoint (old new : Word) {mask m : Word} (h : mask &&& m = 0) :
    merge old new mask &&& m = old &&& m := by
  apply BitVec.eq_of_getLsbD_eq
  intro j _
  have hj : (mask.getLsbD j && m.getLsbD j) = false := by
    rw [← BitVec.getLsbD_and, h]; exact BitVec.getLsbD_zero
  rw [BitVec.getLsbD_and, BitVec.getLsbD_and, getLsbD_merge]
  cases hm : m.getLsbD j
  · rw [Bool.and_false, Bool.and_false]
  · rw [hm, Bool.and_true] at hj
    rw [hj]; rfl

/-- What a mask selects is invisible through its complement. -/
theorem and_and_not_self (v m : Word) : v &&& m &&& ~~~m = 0 := by
  rw [BitVec.and_assoc, BitVec.and_not_self]; exact BitVec.and_zero

/-- Replacing one register of an array keeps every register inside its mask, where the new value is. -/
theorem regAt_setReg_inside {k : Nat} {v : Vector Word k} {mask : Nat → Word} {j : Nat} {x : Word} (hj : j < k)
    (hx : x &&& ~~~mask j = 0) (hv : ∀ i : Fin k, regAt v i &&& ~~~mask i = 0) (i : Fin k) :
    regAt (setReg v j x) i &&& ~~~mask i = 0 := by
  rw [regAt_setReg v j i x hj]
  split
  · subst_vars; exact hx
  · exact hv i

/-! ### Even registers (10 R23, R24; 41 R171) -/

theorem add_even_bit {a : ProgAddr} (k : Nat) (h : a.getLsbD 0 = false) :
    (a + BitVec.ofNat 23 (2 * k)).getLsbD 0 = false := by
  rw [← BitVec.testBit_toNat, Nat.testBit_zero, decide_eq_false_iff_not] at h ⊢
  rw [BitVec.toNat_add, BitVec.toNat_ofNat]
  omega

theorem State.advance_pc_even {s : State} (k : Nat) (h : s.pc.getLsbD 0 = false) :
    (s.advance (2 * k)).pc.getLsbD 0 = false := by
  rw [State.advance_eq]
  split
  · exact add_even_bit k h
  · exact evenPc_bit _

/-- A working register other than W15 leaves W15 alone. -/
theorem sp_set_of_ne {w : Vector Word 16} {d : BitVec 4} (v : Word) (h : d ≠ 15#4) :
    (w.set d.toNat v d.isLt)[15] = w[15] :=
  Vector.getElem_set_ne _ _ fun hd => h (BitVec.eq_of_toNat_eq hd)

theorem State.deviceReset_sp (s : State) (kind : ResetKind) : (s.deviceReset kind).sp = Config.stackBase := rfl

/-- Each elementary update writes PC, W15 and SPLIM with bit 0 at 0, or leaves them. -/
theorem kept_evenOk : Kept State.evenOk where
  pc _ ha := fun ⟨_, hw, hl⟩ => ⟨ha, hw, hl⟩
  advance {s} k := fun ⟨hp, hw, hl⟩ =>
    ⟨State.advance_pc_even k hp, by rw [State.sp, State.advance_w]; exact hw, by rw [State.advance_splim]; exact hl⟩
  setSp {s} v := fun ⟨hp, _, hl⟩ => ⟨hp, by rw [State.sp_setSp]; exact evenWord_even v, hl⟩
  reg {s} d v hd := fun ⟨hp, hw, hl⟩ => ⟨hp, by rw [State.sp, sp_set_of_ne v hd]; exact hw, hl⟩
  sr _ _ h := h
  accOverflow _ _ h := h
  coreFlags _ h := h
  doLevel _ h := h
  conflict h := h
  ipl3 _ h := h
  flag _ _ _ h := h
  corcon _ h := h
  intcon1 _ h := h
  intcon2 _ h := h
  ifs _ _ h := h
  iec _ _ h := h
  ipc _ _ h := h
  splim v _ := fun ⟨hp, hw, _⟩ => ⟨hp, hw, evenWord_even v⟩
  disi _ h := h
  disicnt _ _ h := h
  countDown h := by rw [State.countDown_eq]; exact h
  ram _ _ _ _ h := h
  inttreg _ _ _ h := h
  irqFlag _ h := by rw [State.setIrqFlag_frame]; exact h
  reset {s} kind _ :=
    ⟨(by decide : State.reset.pc.getLsbD 0 = false), by rw [s.deviceReset_sp kind]; decide, evenWord_even _⟩
  rest _ _ _ _ _ _ _ _ _ _ _ _ _ _ h := h

/-! ### Reserved bits (10 R28, R31, R40, R62) -/

/-- The unimplemented bits of INTCON1 are bits 0 and 5. -/
theorem intcon1_reserved_bit {i : Nat} (h0 : i ≠ 0) (h5 : i ≠ 5) : (0x0021#16).getLsbD i = false := by
  have hall : ∀ j < 16, j ≠ 0 → j ≠ 5 → (0x0021#16).getLsbD j = false := by decide
  by_cases hi : i < 16
  · exact hall i hi h0 h5
  · exact BitVec.getLsbD_of_ge _ _ (by omega)

/-- The one bit of INTCON2 that a cycle may clear, DISI, is implemented. -/
theorem State.countDown_intcon2_reserved (s : State) :
    s.countDown.intcon2 &&& 0x3FF8#16 = s.intcon2 &&& 0x3FF8#16 := by
  rw [State.countDown_eq]
  dsimp only
  split
  · exact setBitTo_and_of_clear _ _ (by decide)
  · rfl

theorem reset_reservedOk : State.reset.reservedOk := by decide

/-- Each elementary update writes implemented bits of CORCON, INTCON1, INTCON2 and INTTREG only. -/
theorem kept_reservedOk : Kept State.reservedOk where
  pc _ _ h := h
  advance {s} k h := by rw [State.advance_frame s (2 * k)]; exact h
  setSp _ h := h
  reg _ _ _ h := h
  sr _ _ h := h
  accOverflow _ _ h := h
  coreFlags _ h := h
  doLevel _ := fun ⟨hc, h1, h2, ht⟩ => ⟨(merge_and_of_disjoint _ _ (by decide)).trans hc, h1, h2, ht⟩
  conflict h := h
  ipl3 _ := fun ⟨hc, h1, h2, ht⟩ => ⟨(setBitTo_and_of_clear _ _ (by decide)).trans hc, h1, h2, ht⟩
  flag _ h0 h5 := fun ⟨hc, h1, h2, ht⟩ =>
    ⟨hc, (setBitTo_and_of_clear _ _ (intcon1_reserved_bit h0 h5)).trans h1, h2, ht⟩
  corcon _ := fun ⟨hc, h1, h2, ht⟩ =>
    ⟨((setBitTo_and_of_clear _ _ (by decide)).trans (merge_and_of_disjoint _ _ (by decide))).trans hc, h1, h2, ht⟩
  intcon1 _ := fun ⟨hc, h1, h2, ht⟩ =>
    ⟨hc, ((setBitTo_and_of_clear _ _ (by decide)).trans (merge_and_of_disjoint _ _ (by decide))).trans h1, h2, ht⟩
  intcon2 _ := fun ⟨hc, h1, h2, ht⟩ => ⟨hc, h1, (merge_and_of_disjoint _ _ (by decide)).trans h2, ht⟩
  ifs _ _ h := h
  iec _ _ h := h
  ipc _ _ h := h
  splim _ _ h := h
  disi _ := fun ⟨hc, h1, h2, ht⟩ => ⟨hc, h1, (setBitTo_and_of_clear _ _ (by decide)).trans h2, ht⟩
  disicnt _ _ h := h
  countDown {s} := fun ⟨hc, h1, h2, ht⟩ =>
    ⟨by rwa [State.countDown_corcon], by rwa [State.countDown_intcon1], s.countDown_intcon2_reserved.trans h2,
      by rwa [State.countDown_inttreg]⟩
  ram _ _ _ _ h := h
  inttreg _ _ hv := fun ⟨hc, h1, h2, _⟩ => ⟨hc, h1, h2, hv⟩
  irqFlag _ h := by rw [State.setIrqFlag_frame]; exact h
  reset _ _ := reset_reservedOk
  rest _ _ _ _ _ _ _ _ _ _ _ _ _ _ h := h

/-! ### Accumulator status (10 R25) -/

/-- The accumulator status is read from the upper byte of SR alone. -/
theorem accStatusOk_of_upper {s t : State} (h : t.sr.extractLsb' 8 8 = s.sr.extractLsb' 8 8) (hs : s.accStatusOk) :
    t.accStatusOk := by
  have hb : ∀ i, i < 8 → t.sr.getLsbD (8 + i) = s.sr.getLsbD (8 + i) := fun i hi => by
    simpa [hi] using congrArg (fun v => v.getLsbD i) h
  have h10 := hb 2 (by decide)
  have h11 := hb 3 (by decide)
  have h12 := hb 4 (by decide)
  have h13 := hb 5 (by decide)
  have h14 := hb 6 (by decide)
  have h15 := hb 7 (by decide)
  unfold State.accStatusOk
  rw [h10, h11, h12, h13, h14, h15]
  exact hs

/-- OA or OB set by hardware takes OAB with it and leaves SA, SB and SAB. -/
theorem State.withAccOverflow_accStatusOk {s : State} (x : Acc) (b : Bool) (h : s.accStatusOk) :
    (s.withAccOverflow x b).accStatusOk := by
  obtain ⟨-, hkeep, hoab⟩ := s.withAccOverflow_bits x b
  refine ⟨hoab, ?_⟩
  rw [hkeep 10 (by decide) (by cases x <;> decide), hkeep 13 (by decide) (by cases x <;> decide),
    hkeep 12 (by decide) (by cases x <;> decide)]
  exact h.2

/-- Every bit of SR after an instruction of the CPU core has set its flags. -/
theorem State.withCoreFlags_bit (s : State) (v : Word) {i : Nat} (hi : i ≠ 10) :
    (s.withCoreFlags v).sr.getLsbD i = if coreFlags.getLsbD i then v.getLsbD i else s.sr.getLsbD i := by
  unfold State.withCoreFlags
  rw [getLsbD_setBitTo, if_neg fun hc => hi hc.1.symm, getLsbD_merge]

/-- The flags of an instruction take SAB with SA and SB and leave OA, OB and OAB. -/
theorem State.withCoreFlags_accStatusOk {s : State} (v : Word) (h : s.accStatusOk) :
    (s.withCoreFlags v).accStatusOk := by
  have hsab : (s.withCoreFlags v).sr.getLsbD 10 =
      ((s.withCoreFlags v).sr.getLsbD 13 || (s.withCoreFlags v).sr.getLsbD 12) := by
    unfold State.withCoreFlags
    simp only [getLsbD_setBitTo]
    rfl
  refine ⟨?_, hsab⟩
  rw [s.withCoreFlags_bit v (i := 11) (by decide), s.withCoreFlags_bit v (i := 15) (by decide),
    s.withCoreFlags_bit v (i := 14) (by decide)]
  exact h.1

theorem reset_accStatusOk : State.reset.accStatusOk := by decide

/-- Each elementary update that writes OA, OB, SA or SB writes OAB and SAB with them. -/
theorem kept_accStatusOk : Kept State.accStatusOk where
  pc _ _ h := h
  advance {s} k h := by rw [State.advance_frame s (2 * k)]; exact h
  setSp _ h := h
  reg _ _ _ h := h
  sr _ hv h := accStatusOk_of_upper hv h
  accOverflow x b h := State.withAccOverflow_accStatusOk x b h
  coreFlags v h := State.withCoreFlags_accStatusOk v h
  doLevel _ h := h
  conflict h := h
  ipl3 _ h := h
  flag _ _ _ h := h
  corcon _ h := h
  intcon1 _ h := h
  intcon2 _ h := h
  ifs _ _ h := h
  iec _ _ h := h
  ipc _ _ h := h
  splim _ _ h := h
  disi _ h := h
  disicnt _ _ h := h
  countDown h := by rw [State.countDown_eq]; exact h
  ram _ _ _ _ h := h
  inttreg _ _ _ h := h
  irqFlag _ h := by rw [State.setIrqFlag_frame]; exact h
  reset _ _ := reset_accStatusOk
  rest _ _ _ _ _ _ _ _ _ _ _ _ _ _ h := h

/-! ### Bits of sources the device lacks (10 R41, R50; 60 R229) -/

/-- A software write to an array of registers changes implemented bits only (41 R160). -/
theorem regAt_setReg_merge_inside {k : Nat} {v : Vector Word k} {mask : Nat → Word} (j : Fin k) (x : Word)
    (hv : ∀ i : Fin k, regAt v i &&& ~~~mask i = 0) (i : Fin k) :
    regAt (setReg v j (merge (regAt v j) x (mask j))) i &&& ~~~mask i = 0 :=
  regAt_setReg_inside j.isLt ((merge_and_of_disjoint _ _ (BitVec.and_not_self _)).trans (hv j)) hv i

/-- `IrqEvent` sets the flag of an implemented source only (60 R230). -/
theorem State.setIrqFlag_ifs_inside {s : State} (n : Nat)
    (h : ∀ k : Fin 3, regAt s.ifs k &&& ~~~flagMask s.device k = 0) (k : Fin 3) :
    regAt (s.setIrqFlag n).ifs k &&& ~~~flagMask s.device k = 0 := by
  unfold State.setIrqFlag
  split
  · rename_i hn
    obtain ⟨-, hk, -⟩ := implementsSource_bounds hn
    have hbit : (flagMask s.device (n / 16)).getLsbD (n % 16) = true := by
      rw [getLsbD_flagMask _ _ _ (Nat.mod_lt n (by decide)), Nat.div_add_mod, hn]
    exact regAt_setReg_inside hk
      ((setBitTo_and_of_clear _ _ (by rw [BitVec.getLsbD_not, hbit, Bool.not_true, Bool.and_false])).trans
        (h ⟨n / 16, hk⟩)) h k
  · exact h k

/-- After a device reset every implemented source has priority 4 and no other bit of IPC`j` is set (10 R69). -/
theorem State.deviceReset_ipc_at (s : State) (kind : ResetKind) (j : Fin 11) :
    regAt (s.deviceReset kind).ipc j = 0x4444#16 &&& priorityMask s.device j := by
  fin_cases j <;> rfl

/-- What IFSx and IECx hold after a device reset (10 R69). -/
theorem regAt_zeros (k : Fin 3) : regAt #v[0x0000#16, 0x0000#16, 0x0000#16] k = 0 := by
  fin_cases k <;> rfl

/-- Each elementary update writes the bits of implemented sources only. -/
theorem kept_sourcesOk : Kept State.sourcesOk where
  pc _ _ h := h
  advance {s} k h := by rw [State.advance_frame s (2 * k)]; exact h
  setSp _ h := h
  reg _ _ _ h := h
  sr _ _ h := h
  accOverflow _ _ h := h
  coreFlags _ h := h
  doLevel _ h := h
  conflict h := h
  ipl3 _ h := h
  flag _ _ _ h := h
  corcon _ h := h
  intcon1 _ h := h
  intcon2 _ h := h
  ifs k v := fun ⟨hf, he, hp⟩ => ⟨regAt_setReg_merge_inside k v hf, he, hp⟩
  iec k v := fun ⟨hf, he, hp⟩ => ⟨hf, regAt_setReg_merge_inside k v he, hp⟩
  ipc j v := fun ⟨hf, he, hp⟩ => ⟨hf, he, regAt_setReg_merge_inside j v hp⟩
  splim _ _ h := h
  disi _ h := h
  disicnt _ _ h := h
  countDown h := by rw [State.countDown_eq]; exact h
  ram _ _ _ _ h := h
  inttreg _ _ _ h := h
  irqFlag n := fun ⟨hf, he, hp⟩ => by
    rw [State.setIrqFlag_frame]; exact ⟨State.setIrqFlag_ifs_inside n hf, he, hp⟩
  reset {s} kind _ :=
    ⟨fun k => (congrArg (· &&& _) (regAt_zeros k)).trans BitVec.zero_and,
      fun k => (congrArg (· &&& _) (regAt_zeros k)).trans BitVec.zero_and,
      fun j => (congrArg (· &&& _) (s.deviceReset_ipc_at kind j)).trans (and_and_not_self _ _)⟩
  rest _ _ _ _ _ _ _ _ _ _ _ _ _ _ h := h

/-! ### IPL3 (10 R29; 41 R162) -/

/-- Going from `s` to `t`, IPL3 stays or is cleared. -/
def State.ipl3NotSetIn (s t : State) : Prop := t.ipl3 = true → s.ipl3 = true

theorem State.ipl3NotSetIn_of_corcon {s t : State} (h : t.corcon = s.corcon) : s.ipl3NotSetIn t := fun ht => by
  unfold State.ipl3 at ht ⊢; rwa [← h]

/-- A word written to CORCON leaves IPL3 as it was AND as it is written. -/
theorem State.writeCorcon_ipl3 (s : State) (v : Word) : (s.writeCorcon v).ipl3 = (s.ipl3 && v.getLsbD 3) := by
  rw [State.ipl3, State.writeCorcon_corcon, getLsbD_setBitTo, if_pos ⟨rfl, by decide⟩]

/-- CORCON is written at its own address alone, where a write can only clear IPL3. -/
theorem State.writeSfr_ipl3 (s : State) (v : Word) (r : Sfr) : s.ipl3NotSetIn (s.writeSfr v r) := by
  cases r with
  | corcon => exact fun h => ((Bool.and_eq_true _ _).mp ((s.writeCorcon_ipl3 v).symm.trans h)).1
  | wReg d => exact State.ipl3NotSetIn_of_corcon (s.setW_corcon d v)
  | disicnt => exact State.ipl3NotSetIn_of_corcon (s.writeDisicnt_corcon v)
  | _ => exact State.ipl3NotSetIn_of_corcon rfl

theorem State.writeDataWord_ipl3 (s : State) (a v : Word) : s.ipl3NotSetIn (s.writeDataWord a v) := by
  unfold State.writeDataWord
  split
  · exact s.writeSfr_ipl3 v _
  · exact id
  · exact id

/-- The raise of an address error leaves CORCON, whatever it leads to. -/
theorem State.raiseAddressError_ipl3 {s t : State} (h : t.corcon = s.corcon) :
    Answer.keeps s.ipl3NotSetIn t.raiseAddressError :=
  Answer.keeps_ite (Answer.keeps_next (State.ipl3NotSetIn_of_corcon h))
    (Answer.keeps_ite (Answer.keeps_fault _) (Answer.keeps_next (State.ipl3NotSetIn_of_corcon h)))

theorem exec_ipl3_of_ne_retfie {i : Instr} (s : State) (hi : i ≠ .retfie) :
    Answer.keeps s.ipl3NotSetIn (exec i s) := by
  cases i with
  | disi k => exact Answer.keeps_next (State.ipl3NotSetIn_of_corcon (State.advance_corcon _ 2))
  | retfie => exact absurd rfl hi
  | reset => exact Answer.keeps_next fun h => absurd h (by decide : ¬ State.reset.ipl3 = true)
  | pwrsav m => exact Answer.keeps_next (State.ipl3NotSetIn_of_corcon (s.advance_corcon 2))
  | goto a =>
    exact Answer.keeps_ite (Answer.keeps_next (State.ipl3NotSetIn_of_corcon rfl)) (State.raiseAddressError_ipl3 rfl)
  | nop _ => exact Answer.keeps_next (State.ipl3NotSetIn_of_corcon (s.advance_corcon 2))
  | movLit k d => exact Answer.keeps_next (State.ipl3NotSetIn_of_corcon (by simp))
  | movWsF src f =>
    have hstore : s.ipl3NotSetIn (((s.writeDataWord f (s.getW src)).settleSp (s.storesSp f)).advance 2) := fun h =>
      s.writeDataWord_ipl3 f (s.getW src) (State.ipl3NotSetIn_of_corcon (by simp) h)
    exact Answer.keeps_ite (State.raiseAddressError_ipl3 (s.advance_corcon 2))
      (Answer.keeps_ite (Answer.keeps_next hstore) (Answer.keeps_refused _))

/-! ### The statements -/

/-- Settles O54: the elementary updates keep the three bits, so every step does. -/
theorem stepKeepsPcAndStackPointerEven : Obligations.StepKeepsPcAndStackPointerEven :=
  fun _ t h hst => kept_evenOk.step h t hst

/-- Settles O55: the reserved bits and the accumulator status are each kept by the elementary updates. -/
theorem stepKeepsReservedBitsZero : Obligations.StepKeepsReservedBitsZero :=
  fun _ t hst => ⟨fun h => kept_reservedOk.step h t hst, fun h => kept_accStatusOk.step h t hst⟩

/-- Settles O56: the elementary updates write bits of implemented sources only, so every step does. -/
theorem stepKeepsUnimplementedSourceBitsZero : Obligations.StepKeepsUnimplementedSourceBitsZero :=
  fun _ t h hst => kept_sourcesOk.step h t hst

/-- Settles O30, by cases on the instruction; the one that can write CORCON is `MOV Ws, f`. -/
theorem onlyRetfieCanSetIpl3 : Obligations.OnlyRetfieCanSetIpl3 :=
  fun _ s t hi hst => exec_ipl3_of_ne_retfie s hi t hst

/-- Settles O59: each invariant is evaluated at the state after reset. -/
theorem resetMeetsTheInvariants : Obligations.ResetMeetsTheInvariants := by
  refine ⟨?memory, ?even, reset_reservedOk, reset_accStatusOk, ?sources, ?disi⟩
  case memory => decide
  case even => decide
  case sources => decide
  case disi => decide

end Sys2Proof.Machine
end

section
/-! PROOFS. The memories and the device: of the elementary updates only a byte write to data RAM and a device reset can
tell on them. -/

namespace Sys2Proof.Machine

/-! ### Properties of the memories and the device -/

/-- A property that reads the memories and the device alone is kept by every elementary update, once byte writes to data
RAM and device resets keep it. -/
theorem kept_of_memory {P : State → Prop}
    (hP : ∀ {s t : State}, t.data = s.data → t.prog = s.prog → t.device = s.device → P s → P t)
    (ram : ∀ {s : State} (a : Nat) (v : Byte), Config.ramBase ≤ a → a < 0x10000 → P s →
      P { s with data := writeByte s.data a v })
    (reset : ∀ {s : State} (k : ResetKind), P s → P (s.deviceReset k)) : Kept P where
  pc _ _ := hP rfl rfl rfl
  advance {s} _ := hP (s.advance_data _) (s.advance_prog _) (s.advance_device _)
  setSp _ := hP rfl rfl rfl
  reg _ _ _ := hP rfl rfl rfl
  sr _ _ := hP rfl rfl rfl
  accOverflow _ _ := hP rfl rfl rfl
  coreFlags _ := hP rfl rfl rfl
  doLevel _ := hP rfl rfl rfl
  conflict := hP rfl rfl rfl
  ipl3 _ := hP rfl rfl rfl
  flag _ _ _ := hP rfl rfl rfl
  corcon _ := hP rfl rfl rfl
  intcon1 _ := hP rfl rfl rfl
  intcon2 _ := hP rfl rfl rfl
  ifs _ _ := hP rfl rfl rfl
  iec _ _ := hP rfl rfl rfl
  ipc _ _ := hP rfl rfl rfl
  splim _ _ := hP rfl rfl rfl
  disi _ := hP rfl rfl rfl
  disicnt _ _ := hP rfl rfl rfl
  countDown {s} := hP s.countDown_data s.countDown_prog s.countDown_device
  ram := ram
  inttreg _ _ _ := hP rfl rfl rfl
  irqFlag {s} n := hP (s.setIrqFlag_data n) (s.setIrqFlag_prog n) (s.setIrqFlag_device n)
  reset := reset
  rest _ _ _ _ _ _ _ _ _ _ _ _ _ _ := hP rfl rfl rfl

/-- What a device reset leaves in data RAM is drawn, and lists RAM addresses only (10 R69, log 14). -/
theorem State.deviceReset_data (s : State) (kind : ResetKind) :
    (s.deviceReset kind).data = ramOf (Config.freeCells s.draws) := rfl

/-- A device reset leaves program memory (10 R69, log 14). -/
theorem State.deviceReset_prog (s : State) (kind : ResetKind) : (s.deviceReset kind).prog = s.prog := rfl

/-- A device reset leaves the device parameters. -/
theorem State.deviceReset_device (s : State) (kind : ResetKind) : (s.deviceReset kind).device = s.device := rfl

/-! ### The canonical form of the memories (20 R84) -/

/-- A byte written to data RAM is placed in canonical form at a RAM address, and a device reset draws data RAM in that
form. -/
theorem kept_memoryOk : Kept State.memoryOk :=
  kept_of_memory
    (fun hd hp _ ⟨hdata, hprog, hram⟩ => ⟨hd ▸ hdata, hp ▸ hprog, hd ▸ hram⟩)
    (fun a v hlo hhi ⟨hdata, hprog, hram⟩ => ⟨wf_writeByte a v hdata, hprog, inRange_writeByte v hram hlo hhi⟩)
    (fun {s} kind ⟨_, hprog, _⟩ => by
      rw [State.memoryOk, s.deviceReset_data kind, s.deviceReset_prog kind]
      exact ⟨wf_ramOf _, hprog, inRange_ramOf _⟩)

/-! ### Program memory and the device (20 R82, R94) -/

/-- Going from `s` to `t`, program memory and the device parameters stay. -/
def State.sameProgramIn (s t : State) : Prop := t.prog = s.prog ∧ t.device = s.device

/-- No elementary update writes program memory or the device parameters; nor does a device reset. -/
theorem kept_sameProgramIn (s : State) : Kept s.sameProgramIn :=
  kept_of_memory
    (fun _ hp hv ⟨hprog, hdev⟩ => ⟨hp.trans hprog, hv.trans hdev⟩)
    (fun _ _ _ _ h => h)
    (fun {u} kind ⟨hprog, hdev⟩ => ⟨(u.deviceReset_prog kind).trans hprog, (u.deviceReset_device kind).trans hdev⟩)

/-! ### The statements -/

/-- Settles O53: the elementary updates keep the canonical form, so every step does. -/
theorem stepKeepsMemoryCanonical : Obligations.StepKeepsMemoryCanonical :=
  fun _ t h hst => kept_memoryOk.step h t hst

/-- Settles O58: from a state on, the elementary updates keep its program memory and its device, so every step does. -/
theorem stepNeverWritesProgramMemory : Obligations.StepNeverWritesProgramMemory :=
  fun s t hst => (kept_sameProgramIn s).step ⟨rfl, rfl⟩ t hst

end Sys2Proof.Machine
end

section
/-! PROOFS. Decoding and encoding (30 R114-R118): the decoder as an unordered table of the eight rows, what each row
reads from the words of its own instruction, and how those words are rebuilt from what was read. -/

namespace Sys2Proof

/-! ### The opcode table -/

/-- The rows of the opcode table (30 R117). -/
inductive OpcodeRow where
  | disi
  | retfie
  | reset
  | pwrsav
  | goto
  | nop
  | movLit
  | movWsF
  deriving DecidableEq

namespace OpcodeRow

/-- The bits that a row fixes. -/
def mask : OpcodeRow → Word24
  | disi => 0xFFC000#24
  | retfie => 0xFFFFFF#24
  | reset => 0xFFFFFF#24
  | pwrsav => 0xFFFFFE#24
  | goto => 0xFF0001#24
  | nop => 0xFF0000#24
  | movLit => 0xF00000#24
  | movWsF => 0xF80000#24

/-- The values at which a row fixes them. -/
def value : OpcodeRow → Word24
  | disi => 0xFC0000#24
  | retfie => 0x064000#24
  | reset => 0xFE0000#24
  | pwrsav => 0xFE4000#24
  | goto => 0x040000#24
  | nop => 0x000000#24
  | movLit => 0x200000#24
  | movWsF => 0x880000#24

/-- Does the first word belong to the row? -/
def accepts (r : OpcodeRow) (w : Word24) : Bool := matchesRow w r.mask r.value

/-- What the decoder answers to a first word of the row. -/
def answer (w : Word24) (rest : List Word24) : OpcodeRow → Except DecodeError (Instr × List Word24)
  | disi => .ok (.disi (w.extractLsb' 0 14), rest)
  | retfie => .ok (.retfie, rest)
  | reset => .ok (.reset, rest)
  | pwrsav => .ok (.pwrsav (powerSaveOf w), rest)
  | goto =>
    match rest with
    | [] => .error (.noSecondWord w)
    | w2 :: rest' =>
      if matchesRow w2 0xFFFF80#24 0x000000#24 then .ok (.goto (gotoTarget w w2), rest')
      else .error (.badSecondWord w w2)
  | nop => .ok (.nop (w.extractLsb' 0 16), rest)
  | movLit => .ok (.movLit (w.extractLsb' 4 16) (w.extractLsb' 0 4), rest)
  | movWsF => .ok (.movWsF (w.extractLsb' 0 4) (fileAddress w), rest)

end OpcodeRow

theorem matchesRow_iff {w mask value : Word24} : matchesRow w mask value = true ↔ w &&& mask = value := beq_iff_eq

/-- Two rows whose values agree on the bits that both of them fix are the same row. -/
theorem OpcodeRow.eq_of_values_agree {r r' : OpcodeRow} : r.value &&& r'.mask = r'.value &&& r.mask → r = r' := by
  cases r <;> cases r' <;> decide

/-- No word belongs to two rows. -/
theorem OpcodeRow.accepts_unique {r r' : OpcodeRow} {w : Word24} (h : r.accepts w = true) (h' : r'.accepts w = true) :
    r = r' := by
  apply OpcodeRow.eq_of_values_agree
  rw [← matchesRow_iff.mp h, ← matchesRow_iff.mp h', BitVec.and_assoc, BitVec.and_assoc, BitVec.and_comm r.mask]

/-! ### The decoder -/

/-- The decoder tries the rows one after the other. -/
theorem decode_cons (w : Word24) (rest : List Word24) :
    decode (w :: rest) =
      if OpcodeRow.disi.accepts w then OpcodeRow.disi.answer w rest
      else if OpcodeRow.retfie.accepts w then OpcodeRow.retfie.answer w rest
      else if OpcodeRow.reset.accepts w then OpcodeRow.reset.answer w rest
      else if OpcodeRow.pwrsav.accepts w then OpcodeRow.pwrsav.answer w rest
      else if OpcodeRow.goto.accepts w then OpcodeRow.goto.answer w rest
      else if OpcodeRow.nop.accepts w then OpcodeRow.nop.answer w rest
      else if OpcodeRow.movLit.accepts w then OpcodeRow.movLit.answer w rest
      else if OpcodeRow.movWsF.accepts w then OpcodeRow.movWsF.answer w rest
      else .error (.noRow w) := rfl

/-- The order of the rows does not matter: a word is read by the row that it belongs to. -/
theorem decode_of_accepts {r : OpcodeRow} {w : Word24} (h : r.accepts w = true) (rest : List Word24) :
    decode (w :: rest) = r.answer w rest := by
  have accepts_eq (r' : OpcodeRow) : r'.accepts w = decide (r' = r) :=
    Bool.eq_iff_iff.mpr ⟨fun h' => decide_eq_true (OpcodeRow.accepts_unique h' h), fun e => of_decide_eq_true e ▸ h⟩
  simp only [decode_cons, accepts_eq]
  cases r <;> rfl

/-- A word that belongs to no row is rejected with that word (30 R118). -/
theorem decode_of_no_row {w : Word24} (h : ∀ r : OpcodeRow, ¬ r.accepts w = true) (rest : List Word24) :
    decode (w :: rest) = .error (.noRow w) := by
  simp only [decode_cons, h, Bool.false_eq_true, if_false]

/-- What decodes has a first word, which belongs to a row, and is what that row answers. -/
theorem exists_row_of_decode_ok {ws rest : List Word24} {i : Instr} (h : decode ws = .ok (i, rest)) :
    ∃ w ws' r, ws = w :: ws' ∧ OpcodeRow.accepts r w = true ∧ r.answer w ws' = .ok (i, rest) := by
  cases ws with
  | nil => cases h
  | cons w ws' =>
    by_cases hrow : ∃ r : OpcodeRow, r.accepts w = true
    · obtain ⟨r, hr⟩ := hrow
      exact ⟨w, ws', r, rfl, hr, decode_of_accepts hr ws' ▸ h⟩
    · rw [decode_of_no_row (not_exists.mp hrow)] at h
      cases h

/-! ### Fields of a word -/

section
variable {a b c : Nat}

/-- A mask over the highest field alone keeps that field. -/
theorem highField_and (p : BitVec a) (x : BitVec b) : (p ++ x) &&& (BitVec.allOnes a ++ 0#b) = p ++ 0#b := by
  rw [BitVec.and_append, BitVec.and_allOnes, BitVec.and_zero]

/-- A mask that leaves out the middle field drops it. -/
theorem fields_and (p : BitVec a) (x : BitVec b) {y m z : BitVec c} (h : y &&& m = z) :
    (p ++ x ++ y) &&& (BitVec.allOnes a ++ 0#b ++ m) = p ++ 0#b ++ z := by
  rw [BitVec.and_append, highField_and, h]

/-- The middle field of three. -/
theorem extract_middle (p : BitVec a) (x : BitVec b) (y : BitVec c) : (p ++ x ++ y).extractLsb' c b = x := by
  rw [BitVec.extractLsb'_append_eq_of_le le_rfl, Nat.sub_self, BitVec.extractLsb'_append_eq_right]

/-- A word is the concatenation of its three fields. -/
theorem extract_fields (w : BitVec (a + b + c)) :
    w.extractLsb' (c + b) a ++ w.extractLsb' c b ++ w.extractLsb' 0 c = w := by
  rw [BitVec.extractLsb'_append_extractLsb'_eq_extractLsb' rfl, BitVec.extractLsb'_append_extractLsb']

/-- An even word is rebuilt from the bits above bit 0. -/
theorem extract_append_zero {v : BitVec (a + 1)} (h : v.getLsbD 0 = false) : v.extractLsb' 1 a ++ 0#1 = v :=
  calc v.extractLsb' 1 a ++ 0#1 = (v.extractLsb' 1 a).concat false := BitVec.append_ofBool _ false
    _ = (v.extractLsb' 1 a).concat (v.getLsbD 0) := by rw [h]
    _ = v := BitVec.concat_extractLsb'_getLsb

theorem append_zero_even (v : BitVec a) : (v ++ 0#1).getLsbD 0 = false := by
  rw [BitVec.getLsbD_append, if_pos Nat.one_pos, BitVec.getLsbD_zero]

end

/-- A field that the mask covers holds the value's field. -/
theorem extract_of_matchesRow {w mask value : Word24} {start len : Nat} (h : matchesRow w mask value = true)
    (covered : mask.extractLsb' start len = BitVec.allOnes len) :
    w.extractLsb' start len = value.extractLsb' start len := by
  rw [← matchesRow_iff.mp h, BitVec.extractLsb'_and, covered, BitVec.and_allOnes]

/-! ### Reading an encoded instruction -/

theorem decode_encode_disi (k : BitVec 14) (rest : List Word24) :
    decode (encode (.disi k) ++ rest) = .ok (.disi k, rest) := by
  have hrow : OpcodeRow.disi.accepts (0b1111110000#10 ++ k) = true := matchesRow_iff.mpr (highField_and _ k)
  refine (decode_of_accepts hrow rest).trans ?_
  rw [OpcodeRow.answer, BitVec.extractLsb'_append_eq_right]

theorem decode_encode_retfie (rest : List Word24) : decode (encode .retfie ++ rest) = .ok (.retfie, rest) :=
  decode_of_accepts (r := .retfie) rfl rest

theorem decode_encode_reset (rest : List Word24) : decode (encode .reset ++ rest) = .ok (.reset, rest) :=
  decode_of_accepts (r := .reset) rfl rest

theorem decode_encode_pwrsav (m : PowerSave) (rest : List Word24) :
    decode (encode (.pwrsav m) ++ rest) = .ok (.pwrsav m, rest) := by
  cases m with
  | sleep => exact decode_of_accepts (r := .pwrsav) rfl rest
  | idle => exact decode_of_accepts (r := .pwrsav) rfl rest

/-- The two words of a `GOTO` hold all the bits of an even target. -/
theorem gotoTarget_encode {addr : ProgAddr} (even : addr.getLsbD 0 = false) :
    gotoTarget (0x04#8 ++ addr.extractLsb' 1 15 ++ 0#1) (0#17 ++ addr.extractLsb' 16 7) = addr :=
  calc gotoTarget (0x04#8 ++ addr.extractLsb' 1 15 ++ 0#1) (0#17 ++ addr.extractLsb' 16 7)
    _ = addr.extractLsb' 16 7 ++ addr.extractLsb' 1 15 ++ 0#1 := by
      rw [gotoTarget, BitVec.extractLsb'_append_eq_right, extract_middle]
    _ = addr.extractLsb' 1 22 ++ 0#1 := by
      rw [BitVec.extractLsb'_append_extractLsb'_eq_extractLsb' (show 16 = 1 + 15 from rfl)]
    _ = addr := extract_append_zero even

/-- A `GOTO` whose second word matches reads its target from both words (30 R117). -/
theorem answer_goto_cons {w w2 : Word24} (h : matchesRow w2 0xFFFF80#24 0x000000#24 = true) (rest : List Word24) :
    OpcodeRow.goto.answer w (w2 :: rest) = .ok (.goto (gotoTarget w w2), rest) := if_pos h

theorem decode_encode_goto {addr : ProgAddr} (even : addr.getLsbD 0 = false) (rest : List Word24) :
    decode (encode (.goto addr) ++ rest) = .ok (.goto addr, rest) := by
  have hrow : OpcodeRow.goto.accepts (0x04#8 ++ addr.extractLsb' 1 15 ++ 0#1) = true :=
    matchesRow_iff.mpr (fields_and _ _ (m := 1#1) rfl)
  have hrow2 : matchesRow (0#17 ++ addr.extractLsb' 16 7) 0xFFFF80#24 0x000000#24 = true :=
    matchesRow_iff.mpr (highField_and _ _)
  refine (decode_of_accepts hrow _).trans ((answer_goto_cons hrow2 rest).trans ?_)
  rw [gotoTarget_encode even]

theorem decode_encode_nop (ignored : Word) (rest : List Word24) :
    decode (encode (.nop ignored) ++ rest) = .ok (.nop ignored, rest) := by
  have hrow : OpcodeRow.nop.accepts (0x00#8 ++ ignored) = true := matchesRow_iff.mpr (highField_and _ ignored)
  refine (decode_of_accepts hrow rest).trans ?_
  rw [OpcodeRow.answer, BitVec.extractLsb'_append_eq_right]

theorem decode_encode_movLit (k : Word) (d : BitVec 4) (rest : List Word24) :
    decode (encode (.movLit k d) ++ rest) = .ok (.movLit k d, rest) := by
  have hrow : OpcodeRow.movLit.accepts (0b0010#4 ++ k ++ d) = true :=
    matchesRow_iff.mpr (fields_and _ k BitVec.and_zero)
  refine (decode_of_accepts hrow rest).trans ?_
  rw [OpcodeRow.answer, extract_middle, BitVec.extractLsb'_append_eq_right]

theorem decode_encode_movWsF (src : BitVec 4) {f : Word} (even : f.getLsbD 0 = false) (rest : List Word24) :
    decode (encode (.movWsF src f) ++ rest) = .ok (.movWsF src f, rest) := by
  have hrow : OpcodeRow.movWsF.accepts (0b10001#5 ++ f.extractLsb' 1 15 ++ src) = true :=
    matchesRow_iff.mpr (fields_and _ _ BitVec.and_zero)
  have haddr : fileAddress (0b10001#5 ++ f.extractLsb' 1 15 ++ src) = f := by
    rw [fileAddress, extract_middle, extract_append_zero even]
  refine (decode_of_accepts hrow rest).trans ?_
  rw [OpcodeRow.answer, haddr, BitVec.extractLsb'_append_eq_right]

/-! ### Rebuilding the words of what was read -/

theorem encode_disi_of_accepts {w : Word24} (h : OpcodeRow.disi.accepts w = true) :
    encode (.disi (w.extractLsb' 0 14)) = [w] := by
  have hop : w.extractLsb' 14 10 = 0b1111110000#10 := extract_of_matchesRow h rfl
  rw [encode, ← hop]
  exact congrArg (· :: []) BitVec.extractLsb'_append_extractLsb'

/-- A row that fixes every bit accepts one word. -/
theorem OpcodeRow.eq_value_of_accepts {r : OpcodeRow} {w : Word24} (h : r.accepts w = true)
    (full : r.mask = BitVec.allOnes 24) : w = r.value := by
  rw [← matchesRow_iff.mp h, full, BitVec.and_allOnes]

theorem encode_pwrsav_of_accepts {w : Word24} (h : OpcodeRow.pwrsav.accepts w = true) :
    encode (.pwrsav (powerSaveOf w)) = [w] := by
  have hop : w.extractLsb' 1 23 = 0x7F2000#23 := extract_of_matchesRow h rfl
  have hw : BitVec.concat 0x7F2000#23 (w.getLsbD 0) = w := hop ▸ BitVec.concat_extractLsb'_getLsb
  rw [powerSaveOf]
  cases hbit : w.getLsbD 0 with
  | true => rw [← hw, hbit]; rfl
  | false => rw [← hw, hbit]; rfl

theorem gotoTarget_low (w w2 : Word24) : (gotoTarget w w2).extractLsb' 1 15 = w.extractLsb' 1 15 :=
  extract_middle _ _ _

theorem gotoTarget_high (w w2 : Word24) : (gotoTarget w w2).extractLsb' 16 7 = w2.extractLsb' 0 7 := by
  rw [gotoTarget, BitVec.extractLsb'_append_eq_of_le (by decide)]
  exact BitVec.extractLsb'_append_eq_left

theorem encode_goto_of_accepts {w w2 : Word24} (h : OpcodeRow.goto.accepts w = true)
    (h2 : matchesRow w2 0xFFFF80#24 0x000000#24 = true) : encode (.goto (gotoTarget w w2)) = [w, w2] := by
  have hop : w.extractLsb' 16 8 = 0x04#8 := extract_of_matchesRow h rfl
  have hbit : w.extractLsb' 0 1 = 0#1 := extract_of_matchesRow h rfl
  have hop2 : w2.extractLsb' 7 17 = 0#17 := extract_of_matchesRow h2 rfl
  rw [encode, gotoTarget_low, gotoTarget_high, ← hop, ← hbit, ← hop2]
  exact congrArg₂ (fun v v2 => [v, v2]) (extract_fields (a := 8) (b := 15) (c := 1) w)
    BitVec.extractLsb'_append_extractLsb'

theorem encode_nop_of_accepts {w : Word24} (h : OpcodeRow.nop.accepts w = true) :
    encode (.nop (w.extractLsb' 0 16)) = [w] := by
  have hop : w.extractLsb' 16 8 = 0x00#8 := extract_of_matchesRow h rfl
  rw [encode, ← hop]
  exact congrArg (· :: []) BitVec.extractLsb'_append_extractLsb'

theorem encode_movLit_of_accepts {w : Word24} (h : OpcodeRow.movLit.accepts w = true) :
    encode (.movLit (w.extractLsb' 4 16) (w.extractLsb' 0 4)) = [w] := by
  have hop : w.extractLsb' 20 4 = 0b0010#4 := extract_of_matchesRow h rfl
  rw [encode, ← hop]
  exact congrArg (· :: []) (extract_fields (a := 4) (b := 16) (c := 4) w)

theorem fileAddress_extract (w : Word24) : (fileAddress w).extractLsb' 1 15 = w.extractLsb' 4 15 :=
  BitVec.extractLsb'_append_eq_left

theorem encode_movWsF_of_accepts {w : Word24} (h : OpcodeRow.movWsF.accepts w = true) :
    encode (.movWsF (w.extractLsb' 0 4) (fileAddress w)) = [w] := by
  have hop : w.extractLsb' 19 5 = 0b10001#5 := extract_of_matchesRow h rfl
  rw [encode, fileAddress_extract, ← hop]
  exact congrArg (· :: []) (extract_fields (a := 5) (b := 15) (c := 4) w)

/-- A `GOTO` that is read has a matching second word, and its target comes from both words. -/
theorem answer_goto_ok {w : Word24} {ws rest : List Word24} {i : Instr}
    (h : OpcodeRow.goto.answer w ws = .ok (i, rest)) :
    ∃ w2, ws = w2 :: rest ∧ matchesRow w2 0xFFFF80#24 0x000000#24 = true ∧ i = .goto (gotoTarget w w2) := by
  cases ws with
  | nil => cases h
  | cons w2 ws' =>
    by_cases h2 : matchesRow w2 0xFFFF80#24 0x000000#24 = true
    · rw [answer_goto_cons h2] at h
      cases h
      exact ⟨w2, rfl, h2, rfl⟩
    · cases (if_neg h2).symm.trans h

/-- What a row reads from a word of its own is well formed, and its encoding is what was read. -/
theorem encode_of_answer {r : OpcodeRow} {w : Word24} {ws rest : List Word24} {i : Instr}
    (hrow : r.accepts w = true) (h : r.answer w ws = .ok (i, rest)) :
    i.wellFormed = true ∧ encode i ++ rest = w :: ws := by
  cases r with
  | disi => cases h; exact ⟨rfl, congrArg (· ++ _) (encode_disi_of_accepts hrow)⟩
  | retfie => cases h; exact ⟨rfl, congrArg (· :: _) (OpcodeRow.eq_value_of_accepts hrow rfl).symm⟩
  | reset => cases h; exact ⟨rfl, congrArg (· :: _) (OpcodeRow.eq_value_of_accepts hrow rfl).symm⟩
  | pwrsav => cases h; exact ⟨rfl, congrArg (· ++ _) (encode_pwrsav_of_accepts hrow)⟩
  | goto =>
    obtain ⟨w2, rfl, hrow2, rfl⟩ := answer_goto_ok h
    exact ⟨congrArg not (append_zero_even _), congrArg (· ++ _) (encode_goto_of_accepts hrow hrow2)⟩
  | nop => cases h; exact ⟨rfl, congrArg (· ++ _) (encode_nop_of_accepts hrow)⟩
  | movLit => cases h; exact ⟨rfl, congrArg (· ++ _) (encode_movLit_of_accepts hrow)⟩
  | movWsF =>
    cases h
    exact ⟨congrArg not (append_zero_even _), congrArg (· ++ _) (encode_movWsF_of_accepts hrow)⟩

/-! ### A word of no row -/

/-- An unlisted word stops the run where the core agent supplies nothing for it (30 R118). -/
theorem instruction_of_no_row {s : Machine.State} {t : Machine.Turn} {w : Word24}
    (himpl : s.progImpl s.pc.toNat = true) (hw : Machine.readProg s.prog s.pc.toNat = w) (hcore : t.core = none)
    (hdec : ∀ rest, decode (w :: rest) = .error (.noRow w)) : s.instruction t = .refused (.undecodable w) := by
  rw [Machine.State.instruction, if_pos himpl, Machine.State.fetchWords, hw, hdec]
  change s.executeUnlisted t w = .refused (.undecodable w)
  rw [Machine.State.executeUnlisted, hcore]

/-! ### The statements -/

/-- Settles O1: each encoded word belongs to the row of its instruction, and the row's fields are the operands. -/
theorem decodeOfEncodeIsTheInstruction : Obligations.DecodeOfEncodeIsTheInstruction := by
  intro i rest hwf
  cases i with
  | disi k => exact decode_encode_disi k rest
  | retfie => exact decode_encode_retfie rest
  | reset => exact decode_encode_reset rest
  | pwrsav m => exact decode_encode_pwrsav m rest
  | goto addr => exact decode_encode_goto (Bool.not_eq_true' _ ▸ hwf) rest
  | nop ignored => exact decode_encode_nop ignored rest
  | movLit k d => exact decode_encode_movLit k d rest
  | movWsF src f => exact decode_encode_movWsF src (Bool.not_eq_true' _ ▸ hwf) rest

/-- Settles O2: the first word belongs to the row that read it, so the fields read and the row's fixed bits are all of
it. -/
theorem encodeOfDecodeIsTheWords : Obligations.EncodeOfDecodeIsTheWords := by
  intro ws i rest h
  obtain ⟨w, ws', r, rfl, hrow, hans⟩ := exists_row_of_decode_ok h
  exact encode_of_answer hrow hans

/-- Settles O3: no row accepts the word. -/
theorem wordsOfNoRowAreRefused : Obligations.WordsOfNoRowAreRefused := by
  rintro w ⟨hdisi, hretfie, hreset, hpwrsav, hgoto, hnop, hmovLit, hmovWsF⟩
  have hnone (r : OpcodeRow) : ¬ r.accepts w = true := by
    intro h
    cases r with
    | disi => exact hdisi (matchesRow_iff.mp h)
    | retfie => exact hretfie (OpcodeRow.eq_value_of_accepts h rfl)
    | reset => exact hreset (OpcodeRow.eq_value_of_accepts h rfl)
    | pwrsav => exact hpwrsav (matchesRow_iff.mp h)
    | goto => exact hgoto (matchesRow_iff.mp h)
    | nop => exact hnop (matchesRow_iff.mp h)
    | movLit => exact hmovLit (matchesRow_iff.mp h)
    | movWsF => exact hmovWsF (matchesRow_iff.mp h)
  have hdec := decode_of_no_row hnone
  exact ⟨hdec, fun s t himpl hw hcore => instruction_of_no_row himpl hw hcore hdec⟩

/-- Settles O4, by evaluating the decoder on each of the ten words. -/
theorem wordsOfTheSpecDecode : Obligations.WordsOfTheSpecDecode := by
  unfold Obligations.WordsOfTheSpecDecode
  decide

end Sys2Proof
end

section
/-! PROOFS. The interrupt-control instructions (40 R130-R141): what each answers, the clock that a `DISI` counts by, the
return from an exception, and the step that runs an instruction. -/

namespace Sys2Proof.Machine

/-! ### The instructions as functions -/

theorem exec_disi (k : BitVec 14) (s : State) :
    exec (.disi k) s = .next (({ s with disicnt := k }.withDisi (k != 0)).advance 2) := rfl

theorem exec_retfie (s : State) : exec .retfie s = s.returnFromException := rfl

theorem exec_reset (s : State) : exec .reset s = .next (s.deviceReset .software) := rfl

theorem exec_pwrsav (m : PowerSave) (s : State) :
    exec (.pwrsav m) s = .next { s.advance 2 with pmode := powerMode m } := rfl

theorem exec_goto (addr : ProgAddr) (s : State) :
    exec (.goto addr) s =
      if s.progImpl (evenPc addr).toNat then .next (s.setPc addr) else (s.setPc addr).raiseAddressError := rfl

theorem exec_nop (x : Word) (s : State) : exec (.nop x) s = .next (s.advance 2) := rfl

theorem sameMemory_of_eq {s t : State} (hd : t.data = s.data) (hp : t.prog = s.prog) : sameMemory s t :=
  ⟨fun a => congrArg (readByte · a) hd, fun a => congrArg (readByte · a) hp⟩

/-! ### `NOP` and `PWRSAV` (40 R139, R141) -/

/-- Settles O12: `NOP` is the advance of the pc. -/
theorem nopAdvancesThePc : Obligations.NopAdvancesThePc := fun x s =>
  ⟨_, exec_nop x s, s.advance_pc, s.advance_frame 2, sameMemory_of_eq (s.advance_data 2) (s.advance_prog 2)⟩

/-- Settles O10: the mode is set beside the advance of the pc. -/
theorem pwrsavEntersTheMode : Obligations.PwrsavEntersTheMode := by
  intro m s
  refine ⟨_, exec_pwrsav m s, ?mode, s.advance_pc, ?frame,
    sameMemory_of_eq (s.advance_data 2) (s.advance_prog 2)⟩
  case mode => cases m <;> rfl
  case frame =>
    have hadv : s.advance 2 = { s with pc := (s.advance 2).pc, draws := (s.advance 2).draws } := s.advance_frame 2
    exact congrArg (fun u : State => { u with pmode := powerMode m }) hadv

/-! ### `DISI` and the clock (40 R131-R134) -/

/-- INTCON2.DISI after a hardware write of it. -/
theorem State.withDisi_disiActive (s : State) (b : Bool) : (s.withDisi b).disiActive = b := by
  rw [State.disiActive, State.withDisi_intcon2, getLsbD_setBitTo, if_pos ⟨rfl, by decide⟩]

/-- The state after `DISI #k` has the count k, and a `DISI` is active unless k is 0. -/
theorem exec_disi_counts {k : BitVec 14} {s t : State} (h : exec (.disi k) s = .next t) :
    t.disicnt = k ∧ t.disiActive = decide (k ≠ 0) := by
  rw [exec_disi] at h
  cases h
  have hactive := State.withDisi_disiActive { s with disicnt := k } (k != 0)
  refine ⟨State.advance_disicnt _ 2, ?_⟩
  rw [State.disiActive, State.advance_intcon2]
  exact hactive.trans (Bool.eq_iff_iff.mpr (by simp))

/-- Settles O5: the count and the DISI bit are written before the pc is advanced. -/
theorem disiLoadsTheCount : Obligations.DisiLoadsTheCount := by
  intro k s
  obtain ⟨hcount, hactive⟩ := exec_disi_counts (exec_disi k s)
  refine ⟨_, exec_disi k s, hcount, hactive, ?bits, fun h => State.advance_pc _ h, ?frame,
    sameMemory_of_eq (State.advance_data _ 2) (State.advance_prog _ 2)⟩
  case bits =>
    intro b hb
    rw [State.advance_intcon2, State.withDisi_intcon2, getLsbD_setBitTo, if_neg fun h => hb h.1.symm]
  case frame =>
    rw [State.advance_intcon2, hcount]
    exact State.advance_frame _ 2

/-- A soft trap is requested where its flag is 1 and its level is above the CPU priority (60 R226). -/
theorem State.trapRequested_iff (s : State) (t : Trap) :
    s.trapRequested t = true ↔ s.intcon1.getLsbD t.flagBit = true ∧ s.cpuIpl < t.level := by
  rw [State.trapRequested, Bool.and_eq_true, decide_eq_true_iff]
  rfl

/-- The ages of the soft traps after one cycle (60 R248). -/
theorem State.tick_ages (s : State) :
    s.tick.stkAge = (if s.trapRequested .stack = true then min 2 (s.stkAge + 1) else 0) ∧
      s.tick.mathAge = (if s.trapRequested .math = true then min 2 (s.mathAge + 1) else 0) := by
  rw [State.tick, State.countDown_stkAge, State.countDown_mathAge]
  exact ⟨rfl, rfl⟩

/-- Settles O32, by what one cycle leaves in the count, in INTCON2 and in the ages. -/
theorem tickCountsDisicntDown : Obligations.TickCountsDisicntDown := by
  intro s
  obtain ⟨hstk, hmath⟩ := s.tick_ages
  have hcount : s.tick.disicnt = if s.disicnt = 0 then 0 else s.disicnt - 1 := by rw [State.tick_eq]
  have hint : s.tick.intcon2 = if s.disicnt = 1 then setBitTo s.intcon2 14 false else s.intcon2 := by
    rw [State.tick_eq]
  refine ⟨?zero, ?counting, s.ticks_intcon2 1, ?stk, ?math, s.ticks_frame 1⟩
  case zero =>
    intro h0
    rw [hcount, hint, if_pos h0, if_neg (by rw [h0]; decide)]
    exact ⟨rfl, rfl⟩
  case counting =>
    intro h0
    refine ⟨by rw [hcount, if_neg h0], fun h1 => ?_, fun h1 => by rw [hint, if_neg h1]⟩
    rw [State.disiActive, hint, if_pos h1, getLsbD_setBitTo, if_pos ⟨rfl, by decide⟩]
  case stk => simpa only [State.trapRequested_iff, Trap.flagBit, Trap.level] using hstk
  case math => simpa only [State.trapRequested_iff, Trap.flagBit, Trap.level] using hmath

/-- Settles O33: the count falls by one a cycle, and the `DISI` ends in the cycle that takes it to 0. -/
theorem disiLastsItsCount : Obligations.DisiLastsItsCount := by
  intro k s t c h
  obtain ⟨hcount, hactive⟩ := exec_disi_counts h
  refine ⟨by rw [State.ticks_disicnt, hcount], ?_⟩
  have hk : k ≠ 0 ↔ k.toNat ≠ 0 := not_congr BitVec.toNat_inj.symm
  rw [State.ticks_disiActive, hactive, hcount, ← Bool.decide_and, ← decide_not, ← Bool.decide_and]
  exact decide_eq_decide.mpr (by rw [hk]; omega)

/-! ### `RESET` (40 R138, 10 R69) -/

/-- A priority field of IPC registers that hold 4 in the fields of implemented sources. -/
theorem priorityIn_of_reset_value {d : Config.Device} {ipc : Vector Word 11} {n : Nat}
    (hreg : regAt ipc (n / 4) = 0x4444#16 &&& priorityMask d (n / 4)) (himpl : implementsSource d n = true) :
    priorityIn ipc n = 4 := by
  have hfield : (regAt ipc (n / 4)).extractLsb' (4 * (n % 4)) 3 = 4#3 := by
    apply BitVec.eq_of_getLsbD_eq
    intro i hi
    have h4444 : ∀ q < 4, ∀ i < 3, (0x4444#16).getLsbD (4 * q + i) = (4#3).getLsbD i := by decide
    rw [BitVec.getLsbD_extractLsb', decide_eq_true hi, Bool.true_and, hreg, BitVec.getLsbD_and,
      getLsbD_priorityMask d _ _ _ (Nat.mod_lt n (by decide)) hi, Nat.div_add_mod, himpl, Bool.and_true]
    exact h4444 _ (Nat.mod_lt n (by decide)) i hi
  rw [priorityIn, hfield]
  rfl

/-- Which bits of IPCx a device has depends on its sources alone. -/
theorem priorityMask_congr {d e : Config.Device} (h : d.sources = e.sources) : priorityMask d = priorityMask e := by
  have hsrc : implementsSource d = implementsSource e := by
    funext n; rw [implementsSource, implementsSource, h]
  funext j
  rw [priorityMask, priorityMask, hsrc]

/-- With the listed sources a device reset leaves IPCx as 10 R69 has it. -/
theorem State.deviceReset_ipc_of_listed {s : State} (kind : ResetKind)
    (h : s.device.sources = Config.listedSources) : (s.deviceReset kind).ipc = State.reset.ipc := by
  have hmask : priorityMask s.device = priorityMask Config.referenceDevice := priorityMask_congr h
  unfold State.deviceReset
  dsimp only
  rw [hmask]
  rfl

/-- Settles O9: every register but IPCx has a value of its own after the reset; IPCx is read through its mask. -/
theorem resetInstructionResetsTheDevice : Obligations.ResetInstructionResetsTheDevice := by
  intro s
  refine ⟨_, exec_reset s, rfl, s.deviceReset_sp _, rfl, rfl, rfl, rfl, ?flags, ?priorities, ?unused,
    State.deviceReset_ipc_of_listed _, rfl, rfl, rfl, rfl, rfl, s.deviceReset_prog _, s.deviceReset_device _, rfl⟩
  case flags => exact fun k => ⟨regAt_zeros k, regAt_zeros k⟩
  case priorities =>
    intro n hn
    obtain ⟨-, -, hj⟩ := implementsSource_bounds hn
    exact priorityIn_of_reset_value (s.deviceReset_ipc_at _ ⟨n / 4, hj⟩) hn
  case unused =>
    intro j b hb
    rw [s.deviceReset_ipc_at, BitVec.getLsbD_and, getLsbD_priorityMask_unused _ _ _ hb, Bool.and_false]

/-! ### `GOTO` (40 R140, 42 R207, R208) -/

theorem evenPc_of_even {a : ProgAddr} (h : a.getLsbD 0 = false) : evenPc a = a := by
  apply BitVec.eq_of_getLsbD_eq
  intro i hi
  have hmask : ∀ j < 23, j ≠ 0 → (0x7FFFFE#23).getLsbD j = true := by decide
  rw [evenPc, BitVec.getLsbD_and]
  by_cases h0 : i = 0
  · rw [h0, h, Bool.false_and]
  · rw [hmask i hi h0, Bool.and_true]

/-- An address error that no higher hard trap stands against, below its own level, goes on (60 R245). -/
theorem State.settleHardTrap_address_next {s : State} (hosc : s.trapFlag .oscillator = false) (hipl : s.cpuIpl < 13) :
    s.settleHardTrap .address = .next s := by
  have hconf : s.hardTrapConflict .address = false := by
    have hlevel : ¬ 13 < s.cpuIpl := Nat.lt_asymm hipl
    simp [State.hardTrapConflict, Trap.all, Trap.level, hosc, hlevel]
  have hne : ¬ s.cpuIpl = Trap.address.level := Nat.ne_of_lt hipl
  rw [State.settleHardTrap, hconf, Bool.or_false, if_neg hne]
  split
  · rename_i hdue
    rw [← hdue]
  · rfl

/-- Settles O11: the pc takes the target as it is, which is even; then the raise of an unimplemented one is settled. -/
theorem gotoLoadsThePc : Obligations.GotoLoadsThePc := by
  intro addr s hwf
  have heven : evenPc addr = addr := evenPc_of_even (Bool.not_eq_true' _ ▸ hwf)
  have hpc : s.setPc addr = { s with pc := addr } := by rw [State.setPc, heven]
  rw [exec_goto, heven, hpc]
  refine ⟨fun himpl => ⟨_, if_pos himpl, rfl, rfl, sameMemory_of_eq rfl rfl⟩, fun himpl => ?_,
    fun himpl hosc hipl => ?_⟩
  · rw [himpl]; rfl
  · rw [himpl]
    refine State.settleHardTrap_address_next ?_ hipl
    rw [State.trapFlag, State.flagTrap_intcon1, getLsbD_setBitTo, if_neg (by decide)]
    exact hosc

/-! ### A `DISI` masks levels 1 to 6 (40 R132, 60 R241) -/

/-- Arbitration returns a requested trap, or a requested interrupt of an implemented source. -/
theorem State.arbitrate_some {s : State} {ipc : Vector Word 11} {r : Request} (h : s.arbitrate ipc = some r) :
    (∃ t : Trap, r.level = t.level) ∨
      ∃ n, implementsSource s.device n = true ∧ s.irqRequested ipc n = true ∧ r = ⟨n + 8, priorityIn ipc n⟩ := by
  unfold State.arbitrate at h
  split at h
  · rename_i q hq
    cases h
    obtain ⟨t, -, rfl⟩ := Option.map_eq_some_iff.mp hq
    exact .inl ⟨t, rfl⟩
  · have hcases := topIrqOf_cases s ipc Config.listedSources (by decide)
    rw [State.topIrq] at h
    rw [h] at hcases
    obtain ⟨n, -, hr, hreq, -⟩ := hcases
    rw [Bool.and_eq_true] at hreq
    exact .inr ⟨n, hreq.1, hreq.2, hr⟩

theorem Trap.level_ge (t : Trap) : 11 ≤ t.level := by cases t <;> decide

theorem priorityIn_le (ipc : Vector Word 11) (n : Nat) : priorityIn ipc n ≤ 7 := Nat.le_of_lt_succ (BitVec.isLt _)

/-- Settles O36: a trap has a level of 11 or more, and a requested interrupt has a priority above 0 that is not masked. -/
theorem disiMasksLevelsOneToSix : Obligations.DisiMasksLevelsOneToSix := by
  intro s r hdisi harb
  rcases State.arbitrate_some harb with ⟨t, ht⟩ | ⟨n, -, hreq, rfl⟩
  · exact .inr (ht ▸ t.level_ge)
  · rw [State.irqRequested, State.disiMasked, hdisi] at hreq
    have hle := priorityIn_le s.ipc n
    simp only [Bool.and_eq_true, Bool.not_eq_true', Bool.true_and, Bool.and_eq_false_iff, decide_eq_true_eq,
      decide_eq_false_iff_not] at hreq
    obtain ⟨⟨-, hipl⟩, hmask⟩ := hreq
    exact .inl (by dsimp only; omega)

end Sys2Proof.Machine
end

section
/-! PROOFS. The return from an exception (40 R135, R136) and how it undoes the entry (60 R250, R260). -/

namespace Sys2Proof.Machine

/-! ### What a return leaves and changes -/

/-- The two words that the pops of a return read, where none raises a trap and both lie in RAM. -/
theorem State.poppedFrame_of_ok {s : State} (he : s.sp.getLsbD 0 = false) (hr : 0x0800 ≤ (s.sp - 2#16).toNat)
    (hr4 : 0x0800 ≤ (s.sp - 4#16).toNat) (hbad : s.popFrameStackBad = false) (hu : s.popFrameUnimplemented = false) :
    s.poppedFrame = (readWord s.data (s.sp - 2#16).toNat, readWord s.data (s.sp - 4#16).toNat) := by
  rw [even_iff_mod] at he
  have he2 : (s.sp - 2#16).getLsbD 0 = false := by rw [even_iff_mod]; bv_omega
  have he4 : (s.sp - 4#16).getLsbD 0 = false := by rw [even_iff_mod]; bv_omega
  rw [State.poppedFrame, hbad, hu, State.readDataWord_ram he2 hr, State.readDataWord_ram he4 hr4]
  rfl

/-- The state that a return from implemented data answers: the state after it with the stack error it raises. -/
def State.returnedFlagged (s : State) : State :=
  { s.returned with intcon1 := if s.returnStackBad then setBitTo s.intcon1 2 true else s.intcon1 }

theorem exec_retfie_of_implemented {s : State} (h : s.popFrameUnimplemented = false) :
    exec .retfie s = .next s.returnedFlagged := State.returnFromException_eq h

@[simp] theorem State.returnedFlagged_pc (s : State) :
    s.returnedFlagged.pc = frameReturn s.poppedFrame.1 s.poppedFrame.2 := rfl

@[simp] theorem State.returnedFlagged_w (s : State) : s.returnedFlagged.w = s.w.set 15 s.returnedSp := by
  rw [State.returnedFlagged, State.returned_eq]

@[simp] theorem State.returnedFlagged_sp (s : State) : s.returnedFlagged.sp = s.returnedSp := by
  simp [State.sp]

/-- SR takes its lower byte from the frame. -/
@[simp] theorem State.returnedFlagged_sr (s : State) :
    s.returnedFlagged.sr = s.sr.extractLsb' 8 8 ++ s.poppedFrame.1.extractLsb' 8 8 := by
  rw [State.returnedFlagged, State.returned_eq]

@[simp] theorem State.returnedFlagged_srl (s : State) :
    s.returnedFlagged.srl = s.poppedFrame.1.extractLsb' 8 8 := by
  rw [State.srl, State.returnedFlagged_sr, BitVec.extractLsb'_append_eq_right]

/-- CORCON takes IPL3 from the frame. -/
@[simp] theorem State.returnedFlagged_corcon (s : State) :
    s.returnedFlagged.corcon = setBitTo s.corcon 3 (s.poppedFrame.1.getLsbD 7) := by
  rw [State.returnedFlagged, State.returned_eq]

@[simp] theorem State.returnedFlagged_ipl3 (s : State) : s.returnedFlagged.ipl3 = s.poppedFrame.1.getLsbD 7 := by
  rw [State.ipl3, State.returnedFlagged_corcon, getLsbD_setBitTo, if_pos ⟨rfl, by decide⟩]

/-- The registers but W15 stay. -/
theorem State.getW_returnedFlagged (s : State) {d : BitVec 4} (hd : d ≠ 15#4) :
    s.returnedFlagged.getW d = s.getW d := by
  have hne : 15 ≠ d.toNat := fun h => hd (BitVec.eq_of_toNat_eq h.symm)
  simp [State.getW, hne]

/-- A return changes nothing but W15, SR, CORCON, INTCON1, the pc and the draw counter. -/
theorem State.returnedFlagged_frame (s : State) :
    frame { s with
      w := s.returnedFlagged.w
      sr := s.returnedFlagged.sr
      corcon := s.returnedFlagged.corcon
      intcon1 := s.returnedFlagged.intcon1 } s.returnedFlagged := by
  rw [frame, State.returnedFlagged, State.returned_eq]

theorem State.returnedFlagged_sameMemory (s : State) : sameMemory s s.returnedFlagged := by
  rw [State.returnedFlagged, State.returned_eq]
  exact sameMemory_of_eq rfl rfl

/-- With both pops within the checks, only the borrow from W15 = 0 is left to raise the stack error (log 40). -/
theorem State.sp_zero_of_popFrameStackBad {s : State} (he : s.sp.getLsbD 0 = false)
    (hr : 0x0800 ≤ (s.sp - 2#16).toNat) (hr4 : 0x0800 ≤ (s.sp - 4#16).toNat)
    (hlim : s.splimArmed = true → (s.sp - 2#16).toNat ≤ s.splim.toNat ∧ (s.sp - 4#16).toNat ≤ s.splim.toNat)
    (hbad : s.popFrameStackBad = true) : s.sp = 0 := by
  rw [even_iff_mod] at he
  rcases s.popFrameStackBad_iff.mp hbad with (hlow | ⟨harm, hover⟩) | (hlow | ⟨harm, hover⟩) | ⟨hborrow, -⟩
  · exact absurd hlow (Nat.not_lt.mpr hr)
  · exact absurd hover (Nat.not_lt.mpr (hlim harm).1)
  · exact absurd hlow (Nat.not_lt.mpr hr4)
  · exact absurd hover (Nat.not_lt.mpr (hlim harm).2)
  · bv_omega

/-- Settles O6: with both pops within the checks either the return reads the frame, or W15 = 0 and the stack error is
raised. -/
theorem retfieRestoresTheFrame : Obligations.RetfieRestoresTheFrame := by
  intro s he hr hr4 hlim hd hd4
  have hu : s.popFrameUnimplemented = false := by rw [State.popFrameUnimplemented, hd, hd4]; rfl
  refine ⟨_, exec_retfie_of_implemented hu, ?upper, ?corcon, fun d hd => s.getW_returnedFlagged hd, ?frameWords,
    s.returnedFlagged_frame, s.returnedFlagged_sameMemory⟩
  case upper => rw [State.returnedFlagged_sr]; exact append_upper _ _
  case corcon =>
    intro b hb
    rw [State.returnedFlagged_corcon, getLsbD_setBitTo, if_neg fun h => hb h.1.symm]
  case frameWords =>
    cases hbad : s.popFrameStackBad with
    | false =>
      obtain ⟨hsp, hok⟩ := State.returnedSp_of_ok hbad hu he
      have hpop := State.poppedFrame_of_ok he hr hr4 hbad hu
      refine .inl ⟨by rw [State.returnedFlagged_sp, hsp], by rw [State.returnedFlagged_srl, hpop],
        by rw [State.returnedFlagged_ipl3, hpop], by rw [State.returnedFlagged_pc, hpop]; rfl, ?_⟩
      rw [State.returnedFlagged, hok]
      rfl
    | true =>
      have hzero := State.sp_zero_of_popFrameStackBad he hr hr4 hlim hbad
      have herr : s.returnStackBad = true := by rw [State.returnStackBad, hbad, Bool.true_or]
      refine .inr ⟨hzero, ?_, ?_⟩
      · rw [State.returnedFlagged_sp, ← State.returnedSp_even]
        exact evenWord_even _
      · rw [State.returnedFlagged, herr]
        rfl

/-! ### The return undoes the entry (60 R260) -/

/-- An entry leaves data RAM, W15, SPLIM with its arming and the device as its two pushes leave them. -/
theorem State.entered_stack (s : State) (v l : Nat) :
    (s.entered v l).data = s.saveTemp.pushFrame.data ∧ (s.entered v l).sp = s.saveTemp.pushFrame.sp ∧
      (s.entered v l).splim = s.saveTemp.pushFrame.splim ∧
      (s.entered v l).splimArmed = s.saveTemp.pushFrame.splimArmed ∧
      (s.entered v l).device = s.saveTemp.pushFrame.device := by
  unfold State.entered
  simp [State.sp]

/-- The stack after an entry whose pushes go to implemented RAM. -/
theorem State.entered_ram {s : State} (v l : Nat) (he : s.sp.getLsbD 0 = false) (hlo : 0x0800 ≤ s.sp.toNat)
    (hhi : s.sp.toNat + 4 < 0x10000) (hd : s.dataImpl s.sp = true) (hd2 : s.dataImpl (s.sp + 2#16) = true) :
    (s.entered v l).data = writeWord (writeWord s.data s.sp.toNat (frameLow s.pc)) (s.sp.toNat + 2)
        (frameHigh s.srl s.ipl3 s.pc) ∧
      (s.entered v l).sp = s.sp + 4#16 ∧ (s.entered v l).splim = s.splim ∧
      (s.entered v l).splimArmed = s.splimArmed ∧ (s.entered v l).device = s.device := by
  obtain ⟨-, hpush⟩ := State.pushFrame_ram (s := s.saveTemp) he hlo hhi hd hd2
  obtain ⟨hdata, hsp, hsplim, harmed, hdev⟩ := s.entered_stack v l
  rw [hpush] at hdata hsp hsplim harmed hdev
  exact ⟨hdata, hsp.trans (Vector.getElem_set_self _), hsplim, harmed, hdev⟩

/-- A return whose W15 stands 4 above a frame in implemented RAM, within the checks: it reads that frame's two words and
takes W15 down to it. -/
theorem State.return_from_frame {u : State} {a : Word} (hsp : u.sp = a + 4#16) (he : a.getLsbD 0 = false)
    (hlo : 0x0800 ≤ a.toNat) (hhi : a.toNat + 4 < 0x10000)
    (hlim : u.splimArmed = true → a.toNat + 2 ≤ u.splim.toNat) (hd : u.dataImpl a = true)
    (hd2 : u.dataImpl (a + 2#16) = true) :
    u.popFrameUnimplemented = false ∧ u.returnedSp = a ∧
      u.poppedFrame = (readWord u.data (a.toNat + 2), readWord u.data a.toNat) := by
  have h2 : u.sp - 2#16 = a + 2#16 := by rw [hsp]; bv_omega
  have h4 : u.sp - 4#16 = a := by rw [hsp]; bv_omega
  have h2n : (a + 2#16).toNat = a.toNat + 2 := by bv_omega
  have heven : u.sp.getLsbD 0 = false := by rw [even_iff_mod] at he ⊢; bv_omega
  have hpops := State.poppedFrame_ram (s := u) heven (by rw [hsp]; bv_omega)
  rw [h2, h4, h2n] at hpops
  obtain ⟨-, hbad, hun, hpop⟩ := hpops (by omega) hlo
    (fun harm => ⟨hlim harm, Nat.le_trans (by omega) (hlim harm)⟩) hd2 hd
  exact ⟨hun, (State.returnedSp_of_ok hbad hun heven).1.trans h4, hpop⟩

/-- The frame holds all the bits of an even pc (30 R113). -/
theorem frameReturn_frame {pc : ProgAddr} (h : pc.getLsbD 0 = false) (srl : Byte) (ipl3 : Bool) :
    frameReturn (frameHigh srl ipl3 pc) (frameLow pc) = pc :=
  calc frameReturn (frameHigh srl ipl3 pc) (frameLow pc)
    _ = pc.extractLsb' 16 7 ++ pc.extractLsb' 1 15 ++ 0#1 := by
      rw [frameReturn, frameLow, BitVec.extractLsb'_extractLsb'_of_le (by decide)]
      exact congrArg (· ++ pc.extractLsb' 1 15 ++ 0#1) BitVec.extractLsb'_append_eq_right
    _ = pc.extractLsb' 1 22 ++ 0#1 := by
      rw [BitVec.extractLsb'_append_extractLsb'_eq_extractLsb' (show 16 = 1 + 15 from rfl)]
    _ = pc := extract_append_zero h

theorem frameHigh_srl (srl : Byte) (ipl3 : Bool) (pc : ProgAddr) :
    (frameHigh srl ipl3 pc).extractLsb' 8 8 = srl :=
  (BitVec.extractLsb'_append_eq_of_le (by decide)).trans BitVec.extractLsb'_append_eq_left

theorem frameHigh_ipl3 (srl : Byte) (ipl3 : Bool) (pc : ProgAddr) : (frameHigh srl ipl3 pc).getLsbD 7 = ipl3 :=
  calc (frameHigh srl ipl3 pc).getLsbD 7
    _ = (srl ++ BitVec.ofBool ipl3).getLsbD 0 := BitVec.getLsbD_append
    _ = (BitVec.ofBool ipl3).getLsbD 0 := BitVec.getLsbD_append
    _ = ipl3 := by cases ipl3 <;> rfl

/-- SRL and IPL3 hold the CPU priority (10 R30). -/
theorem State.cpuIpl_congr {s t : State} (hsrl : t.srl = s.srl) (hipl3 : t.ipl3 = s.ipl3) : t.cpuIpl = s.cpuIpl := by
  have hipl (u : State) : u.ipl = u.srl.extractLsb' 5 3 :=
    (BitVec.extractLsb'_extractLsb'_of_le (by decide)).symm
  rw [State.cpuIpl, State.cpuIpl, hipl, hipl, hsrl, hipl3]

/-- The entry with its pushes in implemented RAM and within the checks answers the state after it, no trap raised. -/
theorem State.takeException_next_of_ok {s t : State} {v l : Nat} (hbad : s.pushFrameStackBad = false)
    (hu : s.pushFrameUnimplemented = false) (h : s.takeException v l = .next t) : t = s.entered v l := by
  rw [State.takeException, hbad, hu] at h
  dsimp only at h
  split at h
  · cases h; rfl
  · cases h

theorem readWord_congr {m m' : List Host.Cell} {a : Nat} (h : readByte m a = readByte m' a)
    (h1 : readByte m (a + 1) = readByte m' (a + 1)) : readWord m a = readWord m' a := by
  rw [readWord, readWord, h, h1]

/-- The two words of the frame, read back from the memory after the pushes (60 R252). -/
theorem readWord_pushed_frame {m : List Host.Cell} (hwf : Memory.wf m = true) (a : Nat) (lo hi : Word) :
    readWord (writeWord (writeWord m a lo) (a + 2) hi) a = lo ∧
      readWord (writeWord (writeWord m a lo) (a + 2) hi) (a + 2) = hi :=
  ⟨(readWord_writeWord_of_ne hi (.inl (by omega))).trans (readWord_writeWord_self a lo hwf),
    readWord_writeWord_self _ hi (wf_writeWord a lo hwf)⟩

/-- Settles O39: the pops read the two words that the entry pushed, and these hold the pc, SRL and IPL3. -/
theorem retfieUndoesTheEntry : Obligations.RetfieUndoesTheEntry := by
  intro s t u v l hwf he hpc hlo hhi hlim hd hd2 hentry hsp hmem harmed hsplim hdev
  obtain ⟨hpushBad, hpushUn⟩ := State.pushFrame_ok he hlo hhi hlim hd hd2
  obtain rfl := State.takeException_next_of_ok hpushBad hpushUn hentry
  obtain ⟨hdata, htsp, htsplim, htarmed, htdev⟩ := State.entered_ram v l he hlo hhi hd hd2
  have himpl (a : Word) : u.dataImpl a = s.dataImpl a := by rw [State.dataImpl, State.dataImpl, hdev, htdev]
  obtain ⟨hun, hretSp, hpop⟩ := State.return_from_frame (hsp.trans htsp) he hlo hhi
    (by rw [harmed, htarmed, hsplim, htsplim]; exact hlim) ((himpl _).trans hd) ((himpl _).trans hd2)
  have hread (a : Nat) (ha : s.sp.toNat ≤ a) (ha' : a + 1 < s.sp.toNat + 4) :
      readWord u.data a = readWord (s.entered v l).data a :=
    readWord_congr (hmem a ha (by omega)) (hmem (a + 1) (by omega) ha')
  obtain ⟨hlow, hhigh⟩ := readWord_pushed_frame hwf s.sp.toNat (frameLow s.pc) (frameHigh s.srl s.ipl3 s.pc)
  have hframe : u.poppedFrame = (frameHigh s.srl s.ipl3 s.pc, frameLow s.pc) := by
    rw [hpop, hread _ (by omega) (by omega), hread _ (by omega) (by omega), hdata, hlow, hhigh]
  have hsrl : u.returnedFlagged.srl = s.srl := by rw [State.returnedFlagged_srl, hframe]; exact frameHigh_srl _ _ _
  have hipl3 : u.returnedFlagged.ipl3 = s.ipl3 := by
    rw [State.returnedFlagged_ipl3, hframe]; exact frameHigh_ipl3 _ _ _
  refine ⟨_, exec_retfie_of_implemented hun, ?_, hsrl, hipl3, State.cpuIpl_congr hsrl hipl3, ?_⟩
  · rw [State.returnedFlagged_pc, hframe]; exact frameReturn_frame hpc _ _
  · rw [State.returnedFlagged_sp, hretSp]

end Sys2Proof.Machine
end

section
/-! PROOFS. The step of a running CPU with nothing requested (40 R130, 60 R246). -/

namespace Sys2Proof.Machine

/-- Arbitration among the interrupts reads neither the schedule nor the draw counter. -/
theorem topIrqOf_schedule (s : State) (is : List Input) (n : Nat) (ipc : Vector Word 11) :
    ∀ l : List Nat, topIrqOf { s with inputs := is, draws := n } ipc l = topIrqOf s ipc l
  | [] => rfl
  | m :: rest => by
    rw [topIrqOf, topIrqOf, topIrqOf_schedule s is n ipc rest]
    rfl

theorem State.arbitrate_schedule (s : State) (is : List Input) (n : Nat) (ipc : Vector Word 11) :
    State.arbitrate { s with inputs := is, draws := n } ipc = s.arbitrate ipc := by
  rw [State.arbitrate, State.arbitrate, State.topIrq, State.topIrq, topIrqOf_schedule]
  rfl

/-- The state with which the boundary goes on where nothing is requested: no skid is owed (60 R247). -/
def State.ready (s : State) : State := { s.atBoundary with irqSkid := .fresh }

/-- Where nothing is requested and no deferred interrupt is owed, the boundary goes on with the instruction. -/
theorem State.cpuTurn_of_none {s : State} (t : Turn) (hrun : s.pmode = .run) (hdue : s.conflictDue = false)
    (hstale : s.ipcStale = none) (harb : s.arbitrate s.ipc = none) (hskid : ∀ v l, s.irqSkid ≠ .deferred v l) :
    s.cpuTurn t = s.ready.instruction t := by
  have hprio : s.priorities t = s.ipc := by rw [State.priorities, hstale]
  have hlate : s.lateRequest t = none := by
    unfold State.lateRequest
    split
    · rename_i v l h; exact absurd h (hskid v l)
    · rfl
  rw [State.cpuTurn, hdue, if_neg Bool.false_ne_true, hrun]
  change s.boundary t = s.ready.instruction t
  rw [State.boundary, hprio, harb, hlate]
  rfl

/-- The boundary changes nothing that the fetch reads. -/
theorem State.ready_fetch (s : State) :
    s.ready.pc = s.pc ∧ s.ready.device = s.device ∧ s.ready.fetchWords = s.fetchWords := by
  rw [State.ready, State.atBoundary_frame]
  exact ⟨rfl, rfl, rfl⟩

/-- At a word of the opcode table the instruction is performed after its cycles (40 R130). -/
theorem State.instruction_of_decode {s : State} {t : Turn} {i : Instr} {rest : List Word24}
    (himpl : s.progImpl s.pc.toNat = true) (hdec : decode s.fetchWords = .ok (i, rest)) (hosc : t.oscFail = false) :
    s.instruction t = exec i (s.ticks (instrCycles s.device.cycles t.stall i)) := by
  rw [State.instruction, if_pos himpl, hdec]
  change complete t (exec i (s.prepare t (instrCycles s.device.cycles t.stall i))) = _
  rw [complete, State.prepare, hosc]
  rfl

/-- A turn with nothing requested runs the instruction at the pc. -/
theorem State.cpuTurn_runs {s : State} {t : Turn} {i : Instr} {rest : List Word24} (hrun : s.pmode = .run)
    (hdue : s.conflictDue = false) (hstale : s.ipcStale = none) (harb : s.arbitrate s.ipc = none)
    (hskid : ∀ v l, s.irqSkid ≠ .deferred v l) (himpl : s.progImpl s.pc.toNat = true)
    (hdec : decode s.fetchWords = .ok (i, rest)) (hosc : t.oscFail = false) :
    s.cpuTurn t = exec i (s.ready.ticks (instrCycles s.device.cycles t.stall i)) := by
  obtain ⟨hpc, hdev, hfetch⟩ := s.ready_fetch
  have himpl' : s.ready.progImpl s.ready.pc.toNat = true := by
    rw [State.progImpl, hpc, hdev]; exact himpl
  rw [State.cpuTurn_of_none t hrun hdue hstale harb hskid,
    State.instruction_of_decode himpl' (hfetch ▸ hdec) hosc, hdev]

/-- Settles O52: taking the turn from the schedule, or counting the draw of a quiet one, changes nothing that the turn
reads. -/
theorem stepRunsTheDecodedInstruction : Obligations.StepRunsTheDecodedInstruction := by
  intro s i rest hrun hdue hstale harb hskid himpl hdec
  refine ⟨fun hquiet => ?_, fun t later hturn hosc => ?_⟩
  · have harb' : (s.drawn 1).arbitrate s.ipc = none := (s.arbitrate_schedule s.inputs (s.draws + 1) s.ipc).trans harb
    rw [step, State.proceed, hquiet]
    exact State.cpuTurn_runs (s := s.drawn 1) (t := quietTurn s.draws) hrun hdue hstale harb' hskid himpl hdec rfl
  · have harb' : State.arbitrate { s with inputs := later } s.ipc = none :=
      (s.arbitrate_schedule later s.draws s.ipc).trans harb
    rw [step, State.proceed, hturn]
    exact State.cpuTurn_runs (s := { s with inputs := later }) hrun hdue hstale harb' hskid himpl hdec hosc

end Sys2Proof.Machine
end

section
/-! PROOFS. The register moves (41 R182, R183): what `MOV #k, Wd` and `MOV Ws, f` answer at each place of data space, and
what they do to the working registers and to data RAM. -/

namespace Sys2Proof.Machine

/-! ### The instructions as functions -/

theorem exec_movWsF (src : BitVec 4) (f : Word) (s : State) :
    exec (.movWsF src f) s =
      if f.getLsbD 0 then (s.advance 2).raiseAddressError
      else if s.dataImpl f then .next (((s.writeDataWord f (s.getW src)).settleSp (s.storesSp f)).advance 2)
      else .refused (.unimplementedDataWrite f) := rfl

theorem movWsF_wellFormed_iff (src : BitVec 4) (f : Word) :
    (Instr.movWsF src f).wellFormed = true ↔ f.getLsbD 0 = false := by
  rw [Instr.wellFormed, Bool.not_eq_true']

section

variable {src : BitVec 4} {f : Word} {s : State}

/-- At an even implemented address the word is written, W15 is settled and the pc advanced. -/
theorem exec_movWsF_next (he : f.getLsbD 0 = false) (hd : s.dataImpl f = true) :
    exec (.movWsF src f) s =
      .next (((s.writeDataWord f (s.getW src)).settleSp (s.storesSp f)).advance 2) := by
  rw [exec_movWsF, he, hd]; rfl

/-- Where the address is not W15's own, there is nothing to settle. -/
theorem exec_movWsF_of_not_sp (he : f.getLsbD 0 = false) (hd : s.dataImpl f = true)
    (hp : placeOf s.device f ≠ .sfr (.wReg 15#4)) :
    exec (.movWsF src f) s = .next ((s.writeDataWord f (s.getW src)).advance 2) := by
  rw [exec_movWsF_next he hd, State.storesSp, decide_eq_false hp]; rfl

theorem State.writeDataWord_sfr {r : Sfr} (v : Word) (hp : placeOf s.device f = .sfr r) :
    s.writeDataWord f v = s.writeSfr v r := by
  rw [State.writeDataWord, hp]

theorem State.writeDataWord_undescribed (v : Word) (hp : placeOf s.device f = .undescribed) :
    s.writeDataWord f v = s := by
  rw [State.writeDataWord, hp]

/-- At the address of a register other than W15 the register's own rule is the whole effect. -/
theorem exec_movWsF_sfr {r : Sfr} (he : f.getLsbD 0 = false) (hd : s.dataImpl f = true)
    (hp : placeOf s.device f = .sfr r) (hr : r ≠ .wReg 15#4) :
    exec (.movWsF src f) s = .next ((s.writeSfr (s.getW src) r).advance 2) := by
  rw [exec_movWsF_of_not_sp he hd (by rw [hp]; exact fun h => hr (DataPlace.sfr.inj h)), State.writeDataWord_sfr _ hp]

end

/-! ### The addresses of the registers (10 R21, R22) -/

theorem ofNat_even {a : Nat} (h : a % 2 = 0) : (BitVec.ofNat 16 a).getLsbD 0 = false := by
  rw [even_iff_mod, BitVec.toNat_ofNat]; omega

/-- The addresses of Table 28-3 are different even addresses of register space. -/
theorem tableSfrs_ok :
    (∀ p ∈ tableSfrs, 0x20 ≤ p.1 ∧ p.1 < 0x0800 ∧ p.1 % 2 = 0 ∧ p.2 ≠ .wReg 15#4) ∧
      (tableSfrs.map Prod.fst).Nodup := by decide

/-- At an address of Table 28-3 stands its register, whatever the device's parameters are. -/
theorem placeOf_table (d : Config.Device) {a : Nat} {r : Sfr} (h : (a, r) ∈ tableSfrs) :
    placeOf d (BitVec.ofNat 16 a) = .sfr r := by
  obtain ⟨hall, hnodup⟩ := tableSfrs_ok
  obtain ⟨hlo, hhi, heven, -⟩ := hall _ h
  have ha : (BitVec.ofNat 16 a).toNat = a := by rw [BitVec.toNat_ofNat]; omega
  rw [placeOf_register_space d (ofNat_even heven) (by rw [ha]; exact hlo) (by rw [ha]; exact hhi), ha,
    List.lookup_append, lookup_of_mem hnodup h]
  rfl

/-- At 2 * d stands W`d`. -/
theorem placeOf_wReg (d : Config.Device) (w : BitVec 4) :
    placeOf d (BitVec.ofNat 16 (2 * w.toNat)) = .sfr (.wReg w) := by
  have hw := w.isLt
  have ha : (BitVec.ofNat 16 (2 * w.toNat)).toNat = 2 * w.toNat := by rw [BitVec.toNat_ofNat]; omega
  unfold placeOf
  rw [evenWord_of_even (ofNat_even (by omega)), ha]
  dsimp only
  rw [if_pos (by omega), Nat.mul_div_cancel_left _ (by decide), BitVec.ofNat_toNat, BitVec.setWidth_eq]

section

variable {src : BitVec 4} {s : State} {a : Nat} {r : Sfr}

/-- `MOV Ws, f` to an address of Table 28-3. -/
theorem exec_movWsF_table (h : (a, r) ∈ tableSfrs) (hd : s.dataImpl (BitVec.ofNat 16 a) = true) :
    exec (.movWsF src (BitVec.ofNat 16 a)) s = .next ((s.writeSfr (s.getW src) r).advance 2) := by
  obtain ⟨-, -, heven, hr⟩ := tableSfrs_ok.1 _ h
  exact exec_movWsF_sfr (ofNat_even heven) hd (placeOf_table _ h) hr

/-- `MOV Ws, f` to a parameter `ADDR_*` of a well-placed device. -/
theorem exec_movWsF_own (hok : addressesOk s.device.addresses = true) (h : (a, r) ∈ deviceSfrs s.device.addresses)
    (hd : s.dataImpl (BitVec.ofNat 16 a) = true) :
    exec (.movWsF src (BitVec.ofNat 16 a)) s = .next ((s.writeSfr (s.getW src) r).advance 2) := by
  obtain ⟨-, -, heven, -, -⟩ := addressesOk_of_mem hok h
  have hr : r ≠ .wReg 15#4 := by rintro rfl; simp [deviceSfrs] at h
  exact exec_movWsF_sfr (ofNat_even heven) hd (placeOf_own hok h) hr

end

/-! ### What a write of a register leaves unchanged -/

theorem frame_trans {s t u : State} (h : frame s t) (h' : frame t u) : frame s u :=
  h'.trans (congrArg (fun x : State => { x with pc := u.pc, draws := u.draws }) h)

/-- The pc advances from where it was, if what comes before the advance leaves it. -/
theorem State.advance_pc_of_eq {s u : State} (hu : u.pc = s.pc) (h : s.pc.toNat + 2 < 0x800000) :
    (u.advance 2).pc = s.pc + 2 := by
  rw [State.advance_pc _ (by rw [hu]; exact h), hu]

theorem State.getW_advance (s : State) (k : Nat) (e : BitVec 4) : (s.advance k).getW e = s.getW e := by
  simp only [State.getW, State.advance_w]

/-- Neither memory nor the pc is a register of data space. -/
theorem State.writeSfr_unwritten (s : State) (v : Word) (r : Sfr) :
    (s.writeSfr v r).data = s.data ∧ (s.writeSfr v r).prog = s.prog ∧ (s.writeSfr v r).pc = s.pc := by
  cases r with
  | wReg d => exact ⟨s.setW_data d v, s.setW_prog d v, s.setW_pc d v⟩
  | disicnt => exact ⟨s.writeDisicnt_data v, s.writeDisicnt_prog v, s.writeDisicnt_pc v⟩
  | _ => exact ⟨rfl, rfl, rfl⟩

theorem sameMemory_of_writeSfr (s : State) (v : Word) (r : Sfr) : sameMemory s ((s.writeSfr v r).advance 2) := by
  obtain ⟨hdata, hprog, -⟩ := s.writeSfr_unwritten v r
  exact sameMemory_of_eq ((State.advance_data _ 2).trans hdata) ((State.advance_prog _ 2).trans hprog)

theorem State.writeDataWord_pc (s : State) (a v : Word) : (s.writeDataWord a v).pc = s.pc := by
  unfold State.writeDataWord
  split
  · exact (s.writeSfr_unwritten v _).2.2
  · rfl
  · rfl

/-! ### Completion and refusal (41 R183) -/

/-- Settles O14: neither the write nor the settling of W15 touches the pc. -/
theorem movWsFCompletesAtEveryImplementedAddress : Obligations.MovWsFCompletesAtEveryImplementedAddress := by
  intro src f s hwf hd hpc
  exact ⟨_, exec_movWsF_next ((movWsF_wellFormed_iff src f).mp hwf) hd,
    State.advance_pc_of_eq ((State.settleSp_pc _ _).trans (s.writeDataWord_pc _ _)) hpc⟩

/-- Settles O16: an even address fails the one test that is left. -/
theorem movWsFToUnimplementedDataIsRefused : Obligations.MovWsFToUnimplementedDataIsRefused := by
  intro src f s hwf hd
  rw [exec_movWsF, (movWsF_wellFormed_iff src f).mp hwf, hd]
  rfl

/-! ### Data RAM (41 R183, 20 R85) -/

/-- The byte at the address of a written word is its low byte. -/
theorem readByte_writeWord_low {m : List Host.Cell} (a : Nat) (v : Word) (h : Memory.wf m = true) :
    readByte (writeWord m a v) a = v.extractLsb' 0 8 := by
  rw [writeWord, readByte_writeByte_of_ne _ (by omega), readByte_writeByte_self _ _ h]

/-- Settles O15: in RAM the write is one word write to the data memory. -/
theorem movWsFStoresOneWordInRam : Obligations.MovWsFStoresOneWordInRam := by
  intro src f s hwf hd hram hmem
  have heven := (movWsF_wellFormed_iff src f).mp hwf
  refine ⟨_, exec_movWsF_of_not_sp heven hd (placeOf_ne_sfr heven hram _), ?_⟩
  rw [State.writeDataWord_ram _ heven hram]
  refine ⟨?word, ?low, fun h => State.advance_pc _ h, ?frame, ?others⟩
  case word => rw [State.advance_data]; exact readWord_writeWord_self _ _ hmem
  case low => rw [State.advance_data]; exact readByte_writeWord_low _ _ hmem
  case frame => rw [State.advance_data]; exact State.advance_frame _ 2
  case others =>
    rw [sameMemoryBut, State.advance_data, State.advance_prog]
    exact ⟨fun b h0 h1 => readByte_writeWord_of_ne _ h0 h1, fun _ => rfl⟩

/-! ### Working registers (41 R182, R183; 10 R22, R23; 42 R196) -/

/-- W`d` takes a value, W15 is settled, and the pc is advanced: what both moves do to a working register. -/
def State.movedTo (s : State) (d : BitVec 4) (v : Word) : State :=
  ((s.setW d v).settleSp (decide (d = 15#4))).advance 2

theorem exec_movLit (k : Word) (d : BitVec 4) (s : State) : exec (.movLit k d) s = .next (s.movedTo d k) := rfl

theorem exec_movWsF_movedTo {src d : BitVec 4} {s : State} (hd : s.dataImpl (BitVec.ofNat 16 (2 * d.toNat)) = true) :
    exec (.movWsF src (BitVec.ofNat 16 (2 * d.toNat))) s = .next (s.movedTo d (s.getW src)) := by
  have hp := placeOf_wReg s.device d
  have hsp : s.storesSp (BitVec.ofNat 16 (2 * d.toNat)) = decide (d = 15#4) := by
    rw [State.storesSp, hp]; simp
  rw [exec_movWsF_next (ofNat_even (by omega)) hd, hsp, State.writeDataWord_sfr _ hp]
  rfl

theorem evenWord_eq_shift (v : Word) : evenWord v = v >>> 1 <<< 1 := by
  apply BitVec.eq_of_getLsbD_eq
  intro i hi
  unfold evenWord
  rw [BitVec.getLsbD_and]
  interval_cases i <;> simp

/-- Bit 0 does not tell on which side of the stack bound a value lies. -/
theorem evenWord_lt_stackBase_iff (v : Word) : evenWord v < Config.stackBase ↔ v.toNat < 0x0800 := by
  have hv := v.isLt
  rw [evenWord_eq_shift, BitVec.lt_def, BitVec.toNat_shiftLeft, BitVec.toNat_ushiftRight, Nat.shiftLeft_eq,
    Nat.shiftRight_eq_div_pow]
  change _ < 0x0800 ↔ _
  omega

theorem State.sp_setW (s : State) (v : Word) : (s.setW 15#4 v).sp = evenWord v := s.sp_setSp v

/-- Settling leaves W15 even, whether or not its value is lost. -/
theorem State.settleSp_sp_even {s : State} (b : Bool) (h : s.sp.getLsbD 0 = false) :
    (s.settleSp b).sp.getLsbD 0 = false := by
  unfold State.settleSp
  split
  · exact (congrArg (·.getLsbD 0) (State.sp_setSp _ _)).trans (evenWord_even _)
  · exact h

section

variable (s : State) (d : BitVec 4) (v : Word)

/-- A register takes the value unless it is W15. -/
theorem State.movedTo_getW {d : BitVec 4} (hd : d ≠ 15#4) : (s.movedTo d v).getW d = v := by
  rw [State.movedTo, State.getW_advance, State.getW_settleSp _ _ hd, State.getW_setW, if_pos rfl, if_neg hd]

/-- The other registers stay; W15 is settled only where it is the one moved to. -/
theorem State.movedTo_getW_of_ne {d e : BitVec 4} (he : e ≠ d) : (s.movedTo d v).getW e = s.getW e := by
  have hset : (s.setW d v).getW e = s.getW e := by rw [State.getW_setW, if_neg he]
  rw [State.movedTo, State.getW_advance]
  by_cases h : e = 15#4
  · have hd : decide (d = 15#4) = false := decide_eq_false fun h' => he (h.trans h'.symm)
    rw [hd]; exact hset
  · rw [State.getW_settleSp _ _ h]; exact hset

/-- W15 takes a value from 0x0800 on with its bit 0 at 0. -/
theorem State.movedTo_sp {v : Word} (hv : 0x0800 ≤ v.toNat) : (s.movedTo 15#4 v).sp = v &&& 0xFFFE#16 := by
  have hok : 0x0800 ≤ (s.setW 15#4 v).sp.toNat := by
    rw [State.sp_setW]
    exact Nat.not_lt.mp fun h => Nat.not_lt.mpr hv ((evenWord_lt_stackBase_iff v).mp h)
  rw [State.movedTo, State.settleSp_of_ok fun _ => hok]
  exact (congrArg (·[15]) (State.advance_w _ 2)).trans (s.sp_setW v)

theorem State.movedTo_sp_even : (s.movedTo 15#4 v).sp.getLsbD 0 = false := by
  have hset : (s.setW 15#4 v).sp.getLsbD 0 = false := by rw [State.sp_setW]; exact evenWord_even v
  rw [State.movedTo, State.sp, State.advance_w]
  exact State.settleSp_sp_even _ hset

/-- STKERR is set by a value below 0x0800 for W15 alone. -/
theorem State.movedTo_intcon1 :
    (s.movedTo d v).intcon1 = if d = 15#4 ∧ v.toNat < 0x0800 then s.intcon1 ||| 0x0004#16 else s.intcon1 := by
  have hcond : (decide (d = 15#4) = true ∧ (s.setW d v).sp < Config.stackBase) ↔ d = 15#4 ∧ v.toNat < 0x0800 := by
    rw [decide_eq_true_iff]
    refine and_congr_right fun h => ?_
    subst h
    rw [State.sp_setW]; exact evenWord_lt_stackBase_iff v
  rw [State.movedTo, State.advance_intcon1, State.settleSp_frame]
  simp only [hcond, State.setW_intcon1]
  rfl

/-- A move to a working register changes nothing but the registers, STKERR, the pc and the draw counter. -/
theorem State.movedTo_frame :
    frame { s with w := (s.movedTo d v).w, intcon1 := (s.movedTo d v).intcon1 } (s.movedTo d v) := by
  have hset : frame { s with
      w := ((s.setW d v).settleSp (decide (d = 15#4))).w
      intcon1 := ((s.setW d v).settleSp (decide (d = 15#4))).intcon1 }
      ((s.setW d v).settleSp (decide (d = 15#4))) := by
    rw [frame, State.settleSp_frame, State.setW_eq]
  rw [State.movedTo, State.advance_w, State.advance_intcon1]
  exact frame_trans hset (State.advance_frame _ 2)

theorem State.movedTo_sameMemory : sameMemory s (s.movedTo d v) :=
  sameMemory_of_eq (by simp [State.movedTo]) (by simp [State.movedTo])

theorem State.movedTo_pc (h : s.pc.toNat + 2 < 0x800000) : (s.movedTo d v).pc = s.pc + 2 :=
  State.advance_pc_of_eq ((State.settleSp_pc _ _).trans (s.setW_pc d v)) h

end

/-- Settles O13: `MOV #k, Wd` is the move of k to W`d`. -/
theorem movLitWritesTheRegister : Obligations.MovLitWritesTheRegister := fun k d s =>
  ⟨_, exec_movLit k d s, s.movedTo_getW k, fun hd hk => hd ▸ s.movedTo_sp hk, fun hd => hd ▸ s.movedTo_sp_even k,
    fun _ he => s.movedTo_getW_of_ne k he, s.movedTo_intcon1 d k, s.movedTo_pc d k, s.movedTo_frame d k,
    s.movedTo_sameMemory d k⟩

/-- Settles O17: at 2 * d stands W`d`, so the store is the move of W`s` to it. -/
theorem movWsFWritesWorkingRegisters : Obligations.MovWsFWritesWorkingRegisters := fun _ d s himpl =>
  ⟨_, exec_movWsF_movedTo himpl, s.movedTo_getW _, fun hd hv => hd ▸ s.movedTo_sp hv,
    fun hd => hd ▸ s.movedTo_sp_even _, fun _ he => s.movedTo_getW_of_ne _ he, s.movedTo_intcon1 d _,
    s.movedTo_frame d _, s.movedTo_sameMemory d _⟩

end Sys2Proof.Machine
end

section
/-! PROOFS. What a write of each control register leaves in it (41 R160-R173), and that NSTDIS = 1 keeps IPL<2:0>. -/

namespace Sys2Proof.Machine

/-! ### Masks -/

/-- A bit is in a mask where the mask and the bit's own word meet. -/
theorem and_bit_ne_zero_iff (m : Word) (b : Nat) : m &&& (1#16 <<< b) ≠ 0 ↔ m.getLsbD b = true := by
  change m &&& BitVec.twoPow 16 b ≠ 0 ↔ _
  rw [BitVec.and_twoPow]
  cases h : m.getLsbD b
  · simp
  · have hb : b < 16 := BitVec.lt_of_getLsbD h
    refine iff_of_true (fun h0 => ?_) rfl
    have := congrArg (·.getLsbD b) h0
    simp [hb] at this

/-- Two fields of three bits that agree at each. -/
theorem extractLsb'_three_eq {v w : Word} {p : Nat} (h : ∀ i < 3, v.getLsbD (p + i) = w.getLsbD (p + i)) :
    v.extractLsb' p 3 = w.extractLsb' p 3 := by
  apply BitVec.eq_of_getLsbD_eq
  intro i hi
  rw [BitVec.getLsbD_extractLsb', BitVec.getLsbD_extractLsb', h i hi]

/-! ### SR (41 R160, R161) -/

theorem srWritable_bit (nstdis : Bool) (i : Nat) :
    (srWritable nstdis).getLsbD i = true ↔ i < 4 ∨ (5 ≤ i ∧ i < 8 ∧ nstdis = false) := by
  have hall : ∀ n : Bool, ∀ j < 16, (srWritable n).getLsbD j = true ↔ j < 4 ∨ (5 ≤ j ∧ j < 8 ∧ n = false) := by decide
  by_cases hi : i < 16
  · exact hall nstdis i hi
  · rw [BitVec.getLsbD_of_ge _ _ (by omega)]
    refine iff_of_false Bool.false_ne_true ?_
    rintro (h | ⟨-, h, -⟩) <;> omega

theorem State.writeSr_bit (s : State) (v : Word) (i : Nat) :
    (s.writeSr v).sr.getLsbD i =
      if i < 4 ∨ (5 ≤ i ∧ i < 8 ∧ s.nstdis = false) then v.getLsbD i else s.sr.getLsbD i := by
  rw [State.writeSr_sr, getLsbD_merge]
  exact if_congr (srWritable_bit _ _) rfl rfl

/-- IPL<2:0> takes the written bits unless nesting is disabled. -/
theorem State.writeSr_ipl (s : State) (v : Word) :
    (s.writeSr v).ipl = if s.nstdis = true then s.ipl else v.extractLsb' 5 3 := by
  cases hn : s.nstdis
  · rw [if_neg Bool.false_ne_true]
    exact extractLsb'_three_eq fun i hi => by
      rw [State.writeSr_bit, if_pos (.inr ⟨by omega, by omega, hn⟩)]
  · rw [if_pos rfl]
    exact extractLsb'_three_eq fun i hi => by
      rw [State.writeSr_bit, hn, if_neg (by rintro (h | ⟨-, -, h⟩); exacts [by omega, nomatch h])]

/-- Settles O19, by the bits of SR that are writable. -/
theorem writeToSrGatesIpl : Obligations.WriteToSrGatesIpl := by
  intro src s hok f hd
  refine ⟨_, exec_movWsF_own hok (r := .sr) (by simp [deviceSfrs]) hd, ?_⟩
  rw [State.ipl, State.advance_sr]
  refine ⟨s.writeSr_ipl _, fun b hb => ?flags, ?ra, fun b hb => ?upper, State.advance_frame _ 2,
    sameMemory_of_writeSfr s _ _⟩
  case flags => exact (s.writeSr_bit _ b).trans (if_pos (.inl hb))
  case ra => exact (s.writeSr_bit _ 4).trans (if_neg (by simp))
  case upper => exact (s.writeSr_bit _ b).trans (if_neg (by omega))

/-! ### CORCON (41 R162) -/

theorem State.writeCorcon_bit (s : State) (v : Word) {i : Nat} (hi : i ≠ 3) :
    (s.writeCorcon v).corcon.getLsbD i = if (0x18F7#16).getLsbD i = true then v.getLsbD i else s.corcon.getLsbD i := by
  rw [State.writeCorcon_corcon, getLsbD_setBitTo, if_neg fun h => hi h.1.symm, getLsbD_merge]
  rfl

/-- Settles O20; IPL3 is outside the writable bits and has its own rule. -/
theorem writeToCorconClearsIpl3 : Obligations.WriteToCorconClearsIpl3 := by
  intro src s hok f hd
  refine ⟨_, exec_movWsF_own hok (r := .corcon) (by simp [deviceSfrs]) hd, ?_⟩
  rw [State.ipl3, State.advance_corcon]
  refine ⟨s.writeCorcon_ipl3 _, fun b hb => ?written, fun b h3 hb => ?kept, State.advance_frame _ 2,
    sameMemory_of_writeSfr s _ _⟩
  case written =>
    rw [and_bit_ne_zero_iff] at hb
    have h3 : b ≠ 3 := by rintro rfl; exact absurd hb (by decide)
    exact (s.writeCorcon_bit _ h3).trans (if_pos hb)
  case kept =>
    exact (s.writeCorcon_bit _ h3).trans (if_neg fun h => (and_bit_ne_zero_iff _ b).mpr h hb)

/-! ### INTCON1 (41 R166-R169) -/

/-- MATHERR becomes 1 where a 1 is written, and stays 1 while an enabled accumulator overflow persists. -/
theorem State.writeIntcon1_math (s : State) (v : Word) :
    (s.writeIntcon1 v).trapFlag .math = (v.getLsbD 4 || (s.trapFlag .math && s.mathCausePersists)) := by
  rw [State.trapFlag, State.writeIntcon1_intcon1, getLsbD_setBitTo, if_pos ⟨rfl, by decide⟩]

theorem State.writeIntcon1_bit (s : State) (v : Word) {i : Nat} (hi : i ≠ 4) :
    (s.writeIntcon1 v).intcon1.getLsbD i =
      if intcon1Writable.getLsbD i = true then v.getLsbD i else s.intcon1.getLsbD i := by
  rw [State.writeIntcon1_intcon1, getLsbD_setBitTo, if_neg fun h => hi h.1.symm, getLsbD_merge]

/-- Settles O21; MATHERR has its own rule beside the writable bits. -/
theorem writeToIntcon1KeepsMathErr : Obligations.WriteToIntcon1KeepsMathErr := by
  intro src s hd persists
  have hwritable : ∀ b < 16, b ≠ 0 → b ≠ 5 → intcon1Writable.getLsbD b = true := by decide
  refine ⟨_, exec_movWsF_table (r := .intcon1) (by decide) hd, ?_⟩
  rw [State.trapFlag, State.advance_intcon1]
  have hmath := s.writeIntcon1_math (s.getW src)
  refine ⟨fun h => ?clear, fun h => ?set, fun b hb h0 h4 h5 => ?written, ?bit0, ?bit5, State.advance_frame _ 2,
    sameMemory_of_writeSfr s _ _⟩
  case clear => rw [h, Bool.false_or] at hmath; exact hmath
  case set => rw [h, Bool.true_or] at hmath; exact hmath
  case written => exact (s.writeIntcon1_bit _ h4).trans (if_pos (hwritable b hb h0 h5))
  case bit0 => exact (s.writeIntcon1_bit _ (by decide)).trans (if_neg (by decide))
  case bit5 => exact (s.writeIntcon1_bit _ (by decide)).trans (if_neg (by decide))

/-! ### INTCON2 (41 R169) -/

theorem State.writeIntcon2_bit (s : State) (v : Word) (i : Nat) :
    (s.writeIntcon2 v).intcon2.getLsbD i =
      if intcon2Writable.getLsbD i = true then v.getLsbD i else s.intcon2.getLsbD i := by
  rw [State.writeIntcon2_intcon2, getLsbD_merge]

/-- Settles O22, by the bits of INTCON2 that are writable; DISI is none of them. -/
theorem writeToIntcon2LeavesDisi : Obligations.WriteToIntcon2LeavesDisi := by
  intro src s hd
  have hpolarity : ∀ x : Fin 3, intcon2Writable.getLsbD x = true := by decide
  have hkept : ∀ b < 15, 3 ≤ b → ¬ intcon2Writable.getLsbD b = true := by decide
  refine ⟨_, exec_movWsF_table (r := .intcon2) (by decide) hd, ?_⟩
  simp only [State.disiActive, State.altivt, State.edgePolarity, State.advance_intcon2]
  refine ⟨?disi, ?altivt, fun x => ?polarity, fun b h3 h15 => ?kept, State.advance_frame _ 2,
    sameMemory_of_writeSfr s _ _⟩
  case disi => exact (s.writeIntcon2_bit _ 14).trans (if_neg (by decide))
  case altivt => exact (s.writeIntcon2_bit _ 15).trans (if_pos (by decide))
  case polarity => exact (s.writeIntcon2_bit _ x).trans (if_pos (hpolarity x))
  case kept => exact (s.writeIntcon2_bit _ b).trans (if_neg (hkept b h15 h3))

/-! ### IFSx and IECx (41 R163, R164) -/

/-- A word written to one register of flags: the bits of its implemented sources take the written bits. -/
theorem bit_of_written_flags (d : Config.Device) (regs : Vector Word 3) (k : Fin 3) (v : Word) (n : Nat) :
    (regAt (setReg regs k (merge (regAt regs k) v (flagMask d k))) (n / 16)).getLsbD (n % 16) =
      if n / 16 = k.val ∧ implementsSource d n = true then v.getLsbD (n % 16)
      else (regAt regs (n / 16)).getLsbD (n % 16) := by
  rw [regAt_setReg _ _ _ _ k.isLt]
  by_cases hk : n / 16 = k.val
  · rw [if_pos hk.symm, getLsbD_merge, ← hk, getLsbD_flagMask _ _ _ (Nat.mod_lt n (by decide)), Nat.div_add_mod]
    exact if_congr (by simp) rfl rfl
  · rw [if_neg (Ne.symm hk), if_neg fun h => hk h.1]

theorem State.writeIfs_irqFlag (s : State) (k : Fin 3) (v : Word) (n : Nat) :
    (s.writeIfs k v).irqFlag n =
      if n / 16 = k.val ∧ implementsSource s.device n = true then v.getLsbD (n % 16) else s.irqFlag n :=
  bit_of_written_flags s.device s.ifs k v n

theorem State.writeIec_irqEnable (s : State) (k : Fin 3) (v : Word) (n : Nat) :
    (s.writeIec k v).irqEnable n =
      if n / 16 = k.val ∧ implementsSource s.device n = true then v.getLsbD (n % 16) else s.irqEnable n :=
  bit_of_written_flags s.device s.iec k v n

/-- Settles O23: IFS`k` is written through the mask of its implemented sources. -/
theorem writeToFlagsTakesTheWrittenBits : Obligations.WriteToFlagsTakesTheWrittenBits := by
  intro src k s hd
  have hplace : ∀ k : Fin 3, (0x84 + 2 * k.val, Sfr.ifs k) ∈ tableSfrs := by decide
  refine ⟨_, exec_movWsF_table (hplace k) hd, ?_⟩
  simp only [State.irqFlag, State.advance_ifs]
  exact ⟨s.writeIfs_irqFlag k _, State.advance_frame _ 2, sameMemory_of_writeSfr s _ _⟩

/-- Settles O24: IEC`k` is written through the same mask. -/
theorem writeToEnablesTakesTheWrittenBits : Obligations.WriteToEnablesTakesTheWrittenBits := by
  intro src k s hd
  have hplace : ∀ k : Fin 3, (0x94 + 2 * k.val, Sfr.iec k) ∈ tableSfrs := by decide
  refine ⟨_, exec_movWsF_table (hplace k) hd, ?_⟩
  simp only [State.irqEnable, State.advance_iec]
  exact ⟨s.writeIec_irqEnable k _, State.advance_frame _ 2, sameMemory_of_writeSfr s _ _⟩

/-! ### IPCx (41 R165) -/

/-- A priority field takes the written bits where its source is implemented. -/
theorem field_of_written_priorities (d : Config.Device) (old new : Word) (j : Nat) {q : Nat} (hq : q < 4) :
    (merge old new (priorityMask d j)).extractLsb' (4 * q) 3 =
      if implementsSource d (4 * j + q) = true then new.extractLsb' (4 * q) 3 else old.extractLsb' (4 * q) 3 := by
  split
  next h =>
    exact extractLsb'_three_eq fun i hi => by
      rw [getLsbD_merge, getLsbD_priorityMask d j q i hq hi, if_pos h]
  next h =>
    exact extractLsb'_three_eq fun i hi => by
      rw [getLsbD_merge, getLsbD_priorityMask d j q i hq hi, if_neg h]

theorem State.writeIpc_irqPriority (s : State) (j : Fin 11) (v : Word) (n : Nat) :
    (s.writeIpc j v).irqPriority n =
      if n / 4 = j.val ∧ implementsSource s.device n = true then (v.extractLsb' (4 * (n % 4)) 3).toNat
      else s.irqPriority n := by
  rw [State.irqPriority, State.irqPriority, priorityIn, priorityIn, State.writeIpc_ipc, regAt_setReg _ _ _ _ j.isLt]
  by_cases hj : n / 4 = j.val
  · rw [if_pos hj.symm, ← hj, field_of_written_priorities _ _ _ _ (Nat.mod_lt n (by decide)), Nat.div_add_mod]
    split
    next h => rw [if_pos ⟨rfl, h⟩]
    next h => rw [if_neg fun h' => h h'.2]
  · rw [if_neg (Ne.symm hj), if_neg fun h => hj h.1]

/-- Bit 3 of a nibble belongs to no priority field. -/
theorem State.writeIpc_nibble_top (s : State) (j m : Fin 11) (v : Word) {b : Nat} (hb : b % 4 = 3) :
    (regAt (s.writeIpc j v).ipc m).getLsbD b = (regAt s.ipc m).getLsbD b := by
  rw [State.writeIpc_ipc, regAt_setReg _ _ _ _ j.isLt]
  split
  next h => rw [getLsbD_merge, getLsbD_priorityMask_unused _ _ _ (.inl hb), h]; rfl
  next => rfl

/-- Settles O25: IPC`j` is written through the mask of the priority fields of its implemented sources. -/
theorem writeToPrioritiesTakesTheWrittenFields : Obligations.WriteToPrioritiesTakesTheWrittenFields := by
  intro src j s hd
  have hplace : ∀ j : Fin 11, (0xA4 + 2 * j.val, Sfr.ipc j) ∈ tableSfrs := by decide
  refine ⟨_, exec_movWsF_table (hplace j) hd, ?_⟩
  simp only [State.irqPriority, State.advance_ipc, State.advance_ipcStale]
  exact ⟨fun n _ => s.writeIpc_irqPriority j _ n, fun m _ hb => s.writeIpc_nibble_top j m _ hb,
    State.advance_frame _ 2, sameMemory_of_writeSfr s _ _⟩

/-! ### INTTREG (41 R172) -/

/-- Settles O26; the write leaves the state as it is. -/
theorem writeToInttregChangesNothing : Obligations.WriteToInttregChangesNothing := by
  intro src s hd
  have hplace : (0x00E0, Sfr.inttreg) ∈ tableSfrs := by decide
  refine ⟨_, exec_movWsF_table hplace hd, State.advance_inttreg _ 2, State.advance_frame _ 2,
    sameMemory_of_writeSfr s _ _, ?read⟩
  case read =>
    have hp : placeOf s.device 0x00E0#16 = .sfr .inttreg := placeOf_table _ hplace
    rw [State.readDataWord, hp]
    rfl

/-! ### DISICNT (41 R170) -/

theorem State.writeDisicnt_of_active {s : State} (v : Word) (h : s.disiActive = true) :
    s.writeDisicnt v =
      { s with disicnt := v.extractLsb' 0 14 }.withDisi (v.extractLsb' 0 14 != 0) := by
  rw [State.writeDisicnt, h]; rfl

/-- With no `DISI` active, INTCON2 stays and a written 0 gives a count of 0. -/
theorem State.writeDisicnt_of_inactive {s : State} (v : Word) (h : s.disiActive = false) :
    (s.writeDisicnt v).intcon2 = s.intcon2 ∧ (v.extractLsb' 0 14 = 0 → (s.writeDisicnt v).disicnt = 0) := by
  have hw : s.writeDisicnt v =
      if v.extractLsb' 0 14 = 0 then { s with disicnt := 0 }
      else State.drawn { s with disicnt := Config.freeCount s.draws } 1 := by
    rw [State.writeDisicnt, h]; rfl
  rw [hw]
  split
  next => exact ⟨rfl, fun _ => rfl⟩
  next hk => exact ⟨rfl, fun h0 => absurd h0 hk⟩

/-- A write to DISICNT changes no bit of INTCON2 but DISI. -/
theorem State.writeDisicnt_intcon2_bit (s : State) (v : Word) {b : Nat} (hb : b ≠ 14) :
    (s.writeDisicnt v).intcon2.getLsbD b = s.intcon2.getLsbD b := by
  cases h : s.disiActive
  · rw [(State.writeDisicnt_of_inactive v h).1]
  · rw [State.writeDisicnt_of_active v h, State.withDisi_intcon2, getLsbD_setBitTo, if_neg fun h => hb h.1.symm]

/-- A write to DISICNT changes nothing but the count, INTCON2 and the draw counter. -/
theorem State.writeDisicnt_only (s : State) (v : Word) :
    frame { s with disicnt := (s.writeDisicnt v).disicnt, intcon2 := (s.writeDisicnt v).intcon2 }
      (s.writeDisicnt v) := by
  rw [frame, State.writeDisicnt_pc]
  exact s.writeDisicnt_frame v

/-- Settles O27, by whether a `DISI` is active. -/
theorem writeToDisicntNeverDisables : Obligations.WriteToDisicntNeverDisables := by
  intro src s hok f hd k
  refine ⟨_, exec_movWsF_own hok (r := .disicnt) (by simp [deviceSfrs]) hd, ?_⟩
  simp only [State.disiActive, State.advance_disicnt, State.advance_intcon2]
  refine ⟨fun h => ?active, fun h => ?inactive, fun b hb => s.writeDisicnt_intcon2_bit _ hb,
    frame_trans (s.writeDisicnt_only _) (State.advance_frame _ 2), sameMemory_of_writeSfr s _ _⟩
  case active =>
    have hw := State.writeDisicnt_of_active (s.getW src) h
    refine ⟨congrArg State.disicnt hw, ?_⟩
    have hactive := (congrArg State.disiActive hw).trans (State.withDisi_disiActive _ _)
    exact hactive.trans (Bool.eq_iff_iff.mpr (by simp [k]))
  case inactive =>
    obtain ⟨hint, hzero⟩ := State.writeDisicnt_of_inactive (s.getW src) h
    exact ⟨(congrArg (·.getLsbD 14) hint).trans h, hzero⟩

/-! ### SPLIM, RCON and OSCCON (41 R171, R173) -/

/-- Settles O28: SPLIM's own rule is the whole effect. -/
theorem writeToSplimArmsTheCheck : Obligations.WriteToSplimArmsTheCheck := by
  intro src s hok f hd
  refine ⟨_, exec_movWsF_own hok (r := .splim) (by simp [deviceSfrs]) hd, ?_⟩
  rw [State.advance_splim, State.advance_splimArmed]
  exact ⟨rfl, rfl, State.advance_frame _ 2, sameMemory_of_writeSfr s _ _⟩

/-- Settles O29: RCON's own rule is the whole effect. -/
theorem writeToRconClearsTrapr : Obligations.WriteToRconClearsTrapr := by
  intro src s hok f hd
  refine ⟨_, exec_movWsF_own hok (r := .rcon) (by simp [deviceSfrs]) hd, ?_⟩
  rw [State.advance_trapr]
  exact ⟨rfl, State.advance_frame _ 2, sameMemory_of_writeSfr s _ _⟩

/-- A write to OSCCON changes nothing but CF and the draw counter. -/
theorem State.writeOsccon_frame (s : State) : frame { s with cf := s.writeOsccon.cf } s.writeOsccon := rfl

/-- The gaps between the registers of Table 28-3 are none of its addresses. -/
theorem not_mem_tableSfrs_of_gap {f : Word} (h : f.toNat < 0x0080 ∨ (0x0088 < f.toNat ∧ f.toNat < 0x0094) ∨
    (0x0098 < f.toNat ∧ f.toNat < 0x00A4) ∨ (0x00B8 < f.toNat ∧ f ≠ 0x00E0#16)) :
    f.toNat ∉ tableSfrs.map Prod.fst := by
  have hrange : ∀ a ∈ tableSfrs.map Prod.fst,
      (0x0080 ≤ a ∧ a ≤ 0x0088) ∨ (0x0094 ≤ a ∧ a ≤ 0x0098) ∨ (0x00A4 ≤ a ∧ a ≤ 0x00B8) ∨ a = 0x00E0 := by decide
  intro hmem
  have := hrange _ hmem
  bv_omega

/-- Settles O18: at ADDR_OSCCON stands OSCCON, and at a place of neither list of addresses no register. -/
theorem movWsFElsewhereInRegisterSpace : Obligations.MovWsFElsewhereInRegisterSpace := by
  intro src f s hwf hd hlo hhi hok m
  have heven := (movWsF_wellFormed_iff src f).mp hwf
  refine ⟨fun hosc => ?osccon, fun hown hgap => ?undescribed⟩
  case osccon =>
    have hf : f = BitVec.ofNat 16 m.osccon := by rw [← hosc, BitVec.ofNat_toNat, BitVec.setWidth_eq]
    rw [hf] at hd ⊢
    refine ⟨_, exec_movWsF_own hok (r := .osccon) (by simp [deviceSfrs, m]) hd, ?_, sameMemory_of_writeSfr s _ _⟩
    rw [State.advance_cf]
    exact frame_trans s.writeOsccon_frame (State.advance_frame _ 2)
  case undescribed =>
    have hp : placeOf s.device f = .undescribed :=
      placeOf_undescribed heven hlo hhi (not_mem_tableSfrs_of_gap hgap) hown
    refine ⟨_, exec_movWsF_of_not_sp heven hd (by rw [hp]; exact nofun), ?_⟩
    rw [State.writeDataWord_undescribed _ hp]
    exact ⟨s.advance_frame 2, sameMemory_of_eq (s.advance_data 2) (s.advance_prog 2)⟩

/-! ### IPL<2:0> with nesting disabled (41 R161) -/

/-- Going from `s` to `t`, IPL<2:0> stays. -/
def State.iplKeptIn (s t : State) : Prop := t.ipl = s.ipl

theorem State.iplKeptIn_of_sr {s t : State} (h : t.sr = s.sr) : s.iplKeptIn t :=
  congrArg (fun v : Word => v.extractLsb' 5 3) h

/-- SR is written at its own address alone, where NSTDIS = 1 keeps IPL<2:0>. -/
theorem State.writeSfr_iplKept {s : State} (hn : s.nstdis = true) (v : Word) (r : Sfr) :
    s.iplKeptIn (s.writeSfr v r) := by
  cases r with
  | sr => exact (s.writeSr_ipl v).trans (if_pos hn)
  | wReg d => exact State.iplKeptIn_of_sr (s.setW_sr d v)
  | disicnt => exact State.iplKeptIn_of_sr (s.writeDisicnt_sr v)
  | _ => exact State.iplKeptIn_of_sr rfl

theorem State.writeDataWord_iplKept {s : State} (hn : s.nstdis = true) (a v : Word) :
    s.iplKeptIn (s.writeDataWord a v) := by
  unfold State.writeDataWord
  split
  · exact State.writeSfr_iplKept hn v _
  · rfl
  · rfl

/-- The raise of an address error leaves SR, whatever it leads to. -/
theorem State.raiseAddressError_iplKept {s t : State} (h : t.sr = s.sr) :
    Answer.keeps s.iplKeptIn t.raiseAddressError :=
  Answer.keeps_ite (Answer.keeps_next (State.iplKeptIn_of_sr h))
    (Answer.keeps_ite (Answer.keeps_fault _) (Answer.keeps_next (State.iplKeptIn_of_sr h)))

theorem exec_ipl_of_nstdis {i : Instr} {s : State} (hn : s.nstdis = true) (hretfie : i ≠ .retfie)
    (hreset : i ≠ .reset) :
    Answer.keeps s.iplKeptIn (exec i s) := by
  cases i with
  | disi k => exact Answer.keeps_next (State.iplKeptIn_of_sr (State.advance_sr _ 2))
  | retfie => exact absurd rfl hretfie
  | reset => exact absurd rfl hreset
  | pwrsav m => exact Answer.keeps_next (State.iplKeptIn_of_sr (s.advance_sr 2))
  | goto a =>
    exact Answer.keeps_ite (Answer.keeps_next (State.iplKeptIn_of_sr rfl)) (State.raiseAddressError_iplKept rfl)
  | nop _ => exact Answer.keeps_next (State.iplKeptIn_of_sr (s.advance_sr 2))
  | movLit k d => exact Answer.keeps_next (State.iplKeptIn_of_sr (by simp))
  | movWsF src f =>
    have hstore : s.iplKeptIn (((s.writeDataWord f (s.getW src)).settleSp (s.storesSp f)).advance 2) :=
      (State.iplKeptIn_of_sr (by simp)).trans (State.writeDataWord_iplKept hn f (s.getW src))
    exact Answer.keeps_ite (State.raiseAddressError_iplKept (s.advance_sr 2))
      (Answer.keeps_ite (Answer.keeps_next hstore) (Answer.keeps_refused _))

/-- Settles O31, by cases on the instruction; the one that can write SR is `MOV Ws, f`. -/
theorem nestingDisabledFreezesIpl : Obligations.NestingDisabledFreezesIpl := by
  intro i s t hretfie hn hst
  by_cases hreset : i = .reset
  · exact .inr hreset
  · exact .inl (exec_ipl_of_nstdis hn hretfie hreset t hst)

end Sys2Proof.Machine
end

section
/-! PROOFS. Returns whose pops raise a trap (40 R136, 42 R195-R198, R206-R208): the stack error beside the return, and
the address error that is settled after it. -/

namespace Sys2Proof.Machine

/-! ### When a return raises the stack error -/

/-- One of the two pops of a return is below 0x0800 or above an armed SPLIM (42 R195, R196). -/
def State.popsOffStack (s : State) : Prop :=
  (s.sp - 2#16).toNat < 0x0800 ∨ (s.sp - 4#16).toNat < 0x0800 ∨
    (s.splimArmed = true ∧ (s.splim.toNat < (s.sp - 2#16).toNat ∨ s.splim.toNat < (s.sp - 4#16).toNat))

/-- Beside a pop off the stack, only a borrow below 0x0000 may trip a check, which is free (log 40). -/
theorem State.popFrameStackBad_iff_off (s : State) :
    s.popFrameStackBad = true ↔ s.popsOffStack ∨ (s.sp.toNat < 4 ∧ Config.freeBool s.draws = true) := by
  rw [State.popFrameStackBad_iff, State.popsOffStack]
  tauto

theorem State.returnStackBad_iff (s : State) :
    s.returnStackBad = true ↔ s.popFrameStackBad = true ∨ s.returnedSp.toNat < 0x0800 := by
  rw [State.returnStackBad, Bool.or_eq_true, decide_eq_true_iff]
  rfl

/-! ### What a return that traps leaves -/

theorem State.returnedFlagged_sp_even (s : State) : s.returnedFlagged.sp.getLsbD 0 = false := by
  rw [State.returnedFlagged_sp, ← State.returnedSp_even]
  exact evenWord_even _

/-- The upper byte of SR stays: a return writes SRL alone. -/
theorem State.returnedFlagged_sr_upper (s : State) :
    s.returnedFlagged.sr.extractLsb' 8 8 = s.sr.extractLsb' 8 8 := by
  rw [State.returnedFlagged_sr]
  exact append_upper _ _

/-- Every bit of CORCON but IPL3 stays. -/
theorem State.returnedFlagged_corcon_bit (s : State) {b : Nat} (hb : b ≠ 3) :
    s.returnedFlagged.corcon.getLsbD b = s.corcon.getLsbD b := by
  rw [State.returnedFlagged_corcon, getLsbD_setBitTo, if_neg fun h => hb h.1.symm]

theorem State.returnedFlagged_intcon1_of_bad {s : State} (h : s.returnStackBad = true) :
    s.returnedFlagged.intcon1 = s.intcon1 ||| 0x0004#16 := by
  rw [State.returnedFlagged, h]
  rfl

/-- Of INTCON1 a return writes STKERR alone, and only sets it. -/
theorem State.returnedFlagged_intcon1_bit (s : State) (b : Nat) :
    s.returnedFlagged.intcon1.getLsbD b = (s.intcon1.getLsbD b || (s.returnStackBad && decide (b = 2))) := by
  rw [State.returnedFlagged]
  dsimp only
  cases s.returnStackBad with
  | false => simp
  | true =>
    rw [if_pos rfl, getLsbD_setBitTo]
    by_cases hb : b = 2
    · subst hb; simp
    · rw [if_neg fun h => hb h.1.symm]; simp [hb]

/-! ### Pops off the stack (40 R136 case e, 42 R195, R196) -/

/-- Settles O7: a pop off the stack is one of the causes of the stack error, and the pops read implemented data. -/
theorem retfieOffTheStackRaisesStackError : Obligations.RetfieOffTheStackRaisesStackError := by
  intro s he hoff hd hd4
  have hu : s.popFrameUnimplemented = false := by rw [State.popFrameUnimplemented, hd, hd4]; rfl
  have hbad : s.returnStackBad = true :=
    s.returnStackBad_iff.mpr (.inl (s.popFrameStackBad_iff_off.mpr (.inl hoff)))
  refine ⟨_, exec_retfie_of_implemented hu, fun hlow => ?_, s.returnedFlagged_sp_even,
    State.returnedFlagged_intcon1_of_bad hbad, s.returnedFlagged_sr_upper,
    fun _ hb => s.returnedFlagged_corcon_bit hb, fun _ hd => s.getW_returnedFlagged hd, s.returnedFlagged_frame,
    s.returnedFlagged_sameMemory⟩
  rw [State.returnedFlagged_sp, State.returnedSp_of_low he hu hlow]

/-! ### Pops from unimplemented data (42 R206, R208) -/

/-- A return from unimplemented data: the address error is raised beside the stack error, and settled. -/
theorem exec_retfie_of_unimplemented {s : State} (h : s.popFrameUnimplemented = true) :
    exec .retfie s = (s.returnedFlagged.flagTrap .address).settleHardTrap .address := by
  have hflagged : (if s.returnStackBad then s.returned.raiseStackError else s.returned) = s.returnedFlagged := by
    rw [State.returnedFlagged, State.returned_eq]
    cases s.returnStackBad <;> rfl
  rw [exec_retfie, State.returnFromException, h, hflagged]
  rfl

/-- The raise of a trap changes nothing but INTCON1. -/
theorem frame_flagTrap {u t : State} (h : frame u t) (c : Trap) :
    frame { u with intcon1 := (t.flagTrap c).intcon1 } (t.flagTrap c) := by
  have ht : t = { u with pc := t.pc, draws := t.draws } := h
  exact congrArg (fun x : State => { x with intcon1 := (t.flagTrap c).intcon1 }) ht

/-- The flag of a trap after the raise of a trap. -/
theorem State.flagTrap_trapFlag (s : State) (c t : Trap) :
    (s.flagTrap c).trapFlag t = (s.trapFlag t || decide (t = c)) := by
  rw [State.trapFlag, State.flagTrap_intcon1, getLsbD_setBitTo, State.trapFlag]
  cases c <;> cases t <;> simp [Trap.flagBit]

theorem State.returnedFlagged_stack_iff (s : State) :
    s.returnedFlagged.trapFlag .stack = true ↔ s.trapFlag .stack = true ∨ s.returnStackBad = true := by
  rw [State.trapFlag, State.returnedFlagged_intcon1_bit]
  simp [State.trapFlag, Trap.flagBit]

/-- Settles O8: the raise of the address error leaves all but ADDRERR as the return left it, so that STKERR is as the
checks of the return have it. -/
theorem retfieFromUnimplementedDataRaisesAddressError :
    Obligations.RetfieFromUnimplementedDataRaisesAddressError := by
  intro s he hd off
  have hu : s.popFrameUnimplemented = true := by
    rw [State.popFrameUnimplemented]
    rcases hd with hd | hd <;> simp [hd]
  have hstack : (s.returnedFlagged.flagTrap .address).trapFlag .stack = true ↔
      s.trapFlag .stack = true ∨ (off ∨ (s.sp.toNat < 4 ∧ Config.freeBool s.draws = true)) ∨
        s.returnedSp.toNat < 0x0800 := by
    rw [State.flagTrap_trapFlag, decide_eq_false (by decide), Bool.or_false, State.returnedFlagged_stack_iff,
      State.returnStackBad_iff, State.popFrameStackBad_iff_off]
    rfl
  have hsp : (s.returnedFlagged.flagTrap .address).sp = s.returnedSp := s.returnedFlagged_sp
  refine ⟨_, exec_retfie_of_unimplemented hu, ?address, s.returnedFlagged_sp_even, ?set, ?onlySet, ?bits,
    s.returnedFlagged_sr_upper, fun _ hb => s.returnedFlagged_corcon_bit hb,
    fun _ hd => s.getW_returnedFlagged hd, frame_flagTrap s.returnedFlagged_frame .address,
    s.returnedFlagged_sameMemory⟩
  case address => rw [State.flagTrap_trapFlag]; simp
  case set =>
    rw [hstack, hsp]
    rintro (hset | hoff | hlow)
    · exact .inl hset
    · exact .inr (.inl (.inl hoff))
    · exact .inr (.inr hlow)
  case onlySet =>
    rw [hstack, hsp]
    rintro (hset | (hoff | ⟨hborrow, -⟩) | hlow)
    · exact .inl hset
    · exact .inr (.inl hoff)
    · exact .inr (.inr (.inr hborrow))
    · exact .inr (.inr (.inl hlow))
  case bits =>
    intro b hb2 hb3
    rw [State.flagTrap_intcon1, getLsbD_setBitTo, if_neg fun h => hb3 h.1.symm, State.returnedFlagged_intcon1_bit,
      decide_eq_false hb2, Bool.and_false, Bool.or_false]

end Sys2Proof.Machine
end

section
/-! PROOFS. Instructions of the CPU core that raise traps (42 R190-R208): how every such instruction ends, and what the
four kinds of cause - a shift, an accumulator overflow, a divide and a misaligned read - leave. -/

namespace Sys2Proof.Machine

/-! ### The end of an instruction -/

/-- What an instruction of the CPU core ends with: the pc past it, and the flags of its causes set (42 R190, R212). -/
def State.finished (s : State) (k : Nat) (causes : List SoftCause) : State := (s.advance (2 * k)).raiseCauses causes

theorem State.finished_eq (s : State) (k : Nat) (cs : List SoftCause) :
    s.finished k cs =
      { s with
        pc := (s.advance (2 * k)).pc
        intcon1 := s.intcon1 ||| causesMask cs
        draws := (s.advance (2 * k)).draws } := by
  rw [State.finished, State.raiseCauses_eq, State.advance_frame s (2 * k)]

section

variable (s : State) (k : Nat) (cs : List SoftCause)

@[simp] theorem State.finished_w : (s.finished k cs).w = s.w := by rw [State.finished_eq]
@[simp] theorem State.finished_sr : (s.finished k cs).sr = s.sr := by rw [State.finished_eq]
@[simp] theorem State.finished_corcon : (s.finished k cs).corcon = s.corcon := by rw [State.finished_eq]
@[simp] theorem State.finished_intcon1 : (s.finished k cs).intcon1 = s.intcon1 ||| causesMask cs := by
  rw [State.finished_eq]
@[simp] theorem State.finished_accA : (s.finished k cs).accA = s.accA := by rw [State.finished_eq]
@[simp] theorem State.finished_accB : (s.finished k cs).accB = s.accB := by rw [State.finished_eq]
@[simp] theorem State.finished_data : (s.finished k cs).data = s.data := by rw [State.finished_eq]
@[simp] theorem State.finished_prog : (s.finished k cs).prog = s.prog := by rw [State.finished_eq]
@[simp] theorem State.finished_getW (d : BitVec 4) : (s.finished k cs).getW d = s.getW d := by
  rw [State.finished_eq]; rfl
@[simp] theorem State.finished_sp : (s.finished k cs).sp = s.sp := by rw [State.finished_eq]; rfl

end

/-- Below the top of program space the pc moves past the instruction, if what comes before the end leaves it. -/
theorem State.finished_pc {s u : State} (hu : u.pc = s.pc) (k : Nat) (cs : List SoftCause)
    (h : s.pc.toNat + 2 * k < 0x800000) : (u.finished k cs).pc = s.pc + BitVec.ofNat 23 (2 * k) := by
  rw [← hu] at h ⊢
  rw [State.finished_eq]
  exact u.advance_pc_of_lt h

theorem State.finished_sameMemory {s u : State} (hd : u.data = s.data) (hp : u.prog = s.prog) (k : Nat)
    (cs : List SoftCause) : sameMemory s (u.finished k cs) :=
  sameMemory_of_eq ((u.finished_data k cs).trans hd) ((u.finished_prog k cs).trans hp)

/-- What a run without an address error leaves before it ends: everything as stated, or, where it raised a trap, free
values in what it wrote (42 R190, 93 U3). -/
def CoreRun.left (r : CoreRun) (s : State) : State :=
  if r.causes = [] then r.state else ({ s with draws := r.state.draws }).blurAll r.inhibited false r.writes

/-- An instruction without an address error goes on, trapped or not. -/
theorem runCore_finished {s : State} {c k : Nat} {es : List CoreEffect} {r : CoreRun} (hr : runFrom s false es = r)
    (ha : r.addressError = false) :
    runCore ⟨c, es, .fallThrough k⟩ s = .next ((r.left s).finished k r.causes) := by
  by_cases hc : r.causes = []
  · rw [runCore_of_ok hr ha hc, CoreRun.left, if_pos hc, hc]; rfl
  · rw [runCore_of_trap hr ha hc, CoreRun.left, if_neg hc]; rfl

/-- An instruction with an address error: its writes are those of the inhibited run, and the raise is settled
(42 R208). -/
theorem runCore_of_addressError {s : State} {c k : Nat} {es : List CoreEffect} {r : CoreRun}
    (ha : (runFrom s false es).addressError = true) (hr : runFrom s true es = r) :
    runCore ⟨c, es, .fallThrough k⟩ s =
      ((({ s with draws := r.state.draws }).blurAll r.inhibited false r.writes).finished k
        r.causes).raiseAddressError := by
  rw [runCore]
  simp only [ha, hr]
  rfl

theorem causesMask_one (c : SoftCause) : causesMask [c] = causeMask c := BitVec.or_zero

theorem causesMask_two (c d : SoftCause) : causesMask [c, d] = causeMask c ||| causeMask d := by
  rw [causesMask, causesMask_one]

/-! ### Accumulators -/

theorem State.setAcc_eq (s : State) (x : Acc) (v : BitVec 40) :
    s.setAcc x v =
      { s with accA := if x = .a then v else s.accA, accB := if x = .b then v else s.accB } := by
  cases x <;> rfl

/-! ### `SFTAC` (42 R203) -/

theorem shiftTraps_iff (count : Int) : shiftTraps count = true ↔ 16 < count ∨ count < -16 := by
  simp [shiftTraps]

theorem runFrom_sftac_trap (s : State) (b : Bool) (x : Acc) {count : Int} (v : BitVec 40)
    (h : shiftTraps count = true) :
    runFrom s b [.sftac x count v] = ⟨s.shiftAcc x count v, b, false, [.shift], []⟩ := by
  simp [runFrom, runEffects, CoreRun.apply, CoreRun.spCauses, h]

theorem runFrom_sftac_ok (s : State) (b : Bool) (x : Acc) {count : Int} (v : BitVec 40)
    (h : shiftTraps count = false) :
    runFrom s b [.sftac x count v] = ⟨s.setAcc x v, b, false, [], [.acc x]⟩ := by
  simp [runFrom, runEffects, CoreRun.apply, CoreRun.spCauses, State.shiftAcc, State.touchesSp, h]

/-- A shift that traps writes nothing, so that nothing is free. -/
theorem runCore_sftac_trap (s : State) (c k : Nat) (x : Acc) {count : Int} (v : BitVec 40)
    (h : shiftTraps count = true) :
    runCore ⟨c, [.sftac x count v], .fallThrough k⟩ s = .next (s.finished k [.shift]) := by
  have hdraws : (s.shiftAcc x count v).draws = s.draws := by rw [State.shiftAcc, if_pos h]; rfl
  rw [runCore_finished (runFrom_sftac_trap s false x v h) rfl, CoreRun.left, if_neg (List.cons_ne_nil _ _), hdraws]
  rfl

theorem runCore_sftac_ok (s : State) (c k : Nat) (x : Acc) {count : Int} (v : BitVec 40)
    (h : shiftTraps count = false) :
    runCore ⟨c, [.sftac x count v], .fallThrough k⟩ s = .next ((s.setAcc x v).finished k []) :=
  runCore_finished (runFrom_sftac_ok s false x v h) rfl

/-- Settles O48: a shift beyond 16 is the raise of its cause alone, any other the write of the accumulator alone. -/
theorem shiftBeyondSixteenTraps : Obligations.ShiftBeyondSixteenTraps := by
  intro s c k x count v
  by_cases h : 16 < count ∨ count < -16
  · refine ⟨_, runCore_sftac_trap s c k x v ((shiftTraps_iff count).mpr h), State.finished_pc rfl k _, fun _ => ?_,
      fun hin => absurd h (by omega), ?_, State.finished_sameMemory rfl rfl k _⟩
    · exact ⟨s.finished_intcon1 k _, s.finished_accA k _, s.finished_accB k _⟩
    · rw [frame, State.finished_eq]
  · have hok : shiftTraps count = false := Bool.eq_false_iff.mpr fun ht => h ((shiftTraps_iff count).mp ht)
    have heq := s.setAcc_eq x v
    refine ⟨_, runCore_sftac_ok s c k x v hok, State.finished_pc (by rw [heq]) k _, fun hout => absurd hout h,
      fun _ => ⟨?_, ?_, ?_⟩, ?_, State.finished_sameMemory (by rw [heq]) (by rw [heq]) k _⟩
    · rw [State.finished_intcon1, heq]; exact BitVec.or_zero
    · rw [State.finished_accA, heq]
    · rw [State.finished_accB, heq]
    · rw [frame, State.finished_eq, heq]

/-! ### Accumulator overflows (42 R200-R202) -/

/-- A carry-out of bit 31 without 31-bit saturation is an overflow (42 R200). -/
def State.accOverflows (s : State) (x : Acc) (carry31 : Bool) : Bool := carry31 && !s.saturates31 x

/-- A carry-out of bit 39 without saturation is catastrophic, and trapped where COVTE is 1 (42 R201, R202). -/
def State.trapsCatastrophic (s : State) (x : Acc) (carry39 : Bool) : Bool :=
  carry39 && !s.saturates x && s.catastrophicTrapEnabled

theorem State.overflowTrapEnabled_eq (s : State) (x : Acc) :
    s.overflowTrapEnabled x = s.intcon1.getLsbD (if x = .a then 10 else 9) := by cases x <;> rfl

theorem State.saturates_eq (s : State) (x : Acc) :
    s.saturates x = s.corcon.getLsbD (if x = .a then 7 else 6) := by cases x <;> rfl

theorem State.accOverflows_iff (s : State) (x : Acc) (carry31 : Bool) :
    s.accOverflows x carry31 = true ↔
      carry31 = true ∧ ¬(s.corcon.getLsbD (if x = .a then 7 else 6) = true ∧ s.corcon.getLsbD 4 = false) := by
  rw [← State.saturates_eq, State.accOverflows, State.saturates31]
  cases s.saturates x <;> cases s.corcon.getLsbD 4 <;> simp

theorem State.trapsCatastrophic_iff (s : State) (x : Acc) (carry39 : Bool) :
    s.trapsCatastrophic x carry39 = true ↔
      carry39 = true ∧ s.corcon.getLsbD (if x = .a then 7 else 6) = false ∧ s.intcon1.getLsbD 8 = true := by
  rw [← State.saturates_eq, State.trapsCatastrophic, Bool.and_eq_true, Bool.and_eq_true, Bool.not_eq_true', and_assoc]
  rfl

/-- Without a trapped catastrophic overflow, an enabled overflow is the one cause. -/
theorem State.accCauses_of_not_catastrophic {s : State} {x : Acc} {carry31 carry39 : Bool}
    (h : s.trapsCatastrophic x carry39 = false) :
    s.accCauses x carry31 carry39 =
      if s.accOverflows x carry31 = true ∧ s.overflowTrapEnabled x = true then [.overflow x] else [] := by
  unfold State.trapsCatastrophic at h
  unfold State.accCauses
  rw [h]
  simp [State.accOverflows]

/-- A trapped catastrophic overflow is a cause, the ordinary one beside it only where it is enabled, and then free
(93 U4). -/
theorem State.accCauses_of_catastrophic {s : State} {x : Acc} {carry31 carry39 : Bool}
    (h : s.trapsCatastrophic x carry39 = true) :
    s.accCauses x carry31 carry39 = [.catastrophic x] ∨
      (s.overflowTrapEnabled x = true ∧ s.accCauses x carry31 carry39 = [.overflow x, .catastrophic x]) := by
  unfold State.trapsCatastrophic at h
  unfold State.accCauses
  rw [h]
  cases s.overflowTrapEnabled x with
  | false => simp
  | true => cases Config.freeBool s.draws <;> simp

theorem runFrom_accResult (s : State) (b : Bool) (x : Acc) (v : BitVec 40) (carry31 carry39 : Bool) :
    runFrom s b [.accResult x v carry31 carry39] =
      ⟨s.accResult x v carry31 carry39, b, false, s.accCauses x carry31 carry39,
        [.acc x, .overflow x (s.accOverflows x carry31)]⟩ := by
  simp [runFrom, runEffects, CoreRun.apply, CoreRun.spCauses, State.touchesSp, State.accOverflows]

/-- An accumulator with its overflow bit after an instruction. -/
def State.accLeft (s : State) (x : Acc) (v : BitVec 40) (overflowed : Bool) (draws : Nat) : State :=
  { (s.setAcc x v).withAccOverflow x overflowed with draws := draws }

/-- An accumulator result leaves some value and some overflow bit: the bit set by an overflow, both as stated where
nothing is trapped. -/
theorem runCore_accResult (s : State) (c k : Nat) (x : Acc) (v : BitVec 40) (carry31 carry39 : Bool) :
    ∃ u o n,
      runCore ⟨c, [.accResult x v carry31 carry39], .fallThrough k⟩ s =
        .next ((s.accLeft x u o n).finished k (s.accCauses x carry31 carry39)) ∧
      (s.accOverflows x carry31 = true → o = true) ∧
      (s.accCauses x carry31 carry39 = [] → u = v ∧ o = s.accOverflows x carry31) := by
  have hrun := runCore_finished (c := c) (k := k) (runFrom_accResult s false x v carry31 carry39) rfl
  rw [CoreRun.left] at hrun
  dsimp only at hrun
  by_cases hc : s.accCauses x carry31 carry39 = []
  · rw [if_pos hc, State.accResult, hc] at hrun
    exact ⟨v, s.accOverflows x carry31, s.draws + 1, by rw [hc, hrun]; cases x <;> rfl, id, fun _ => ⟨rfl, rfl⟩⟩
  · rw [if_neg hc] at hrun
    generalize (s.accResult x v carry31 carry39).draws = n at hrun
    exact ⟨Config.freeAcc n, s.accOverflows x carry31 || Config.freeBool (n + 1), n + 2,
      by rw [hrun]; cases x <;> rfl, fun ho => by rw [ho, Bool.true_or], fun h => absurd h hc⟩

theorem State.accLeft_eq (s : State) (x : Acc) (v : BitVec 40) (o : Bool) (n : Nat) :
    s.accLeft x v o n =
      { s with
        sr := (s.withAccOverflow x o).sr
        accA := if x = .a then v else s.accA
        accB := if x = .b then v else s.accB
        draws := n } := by
  cases x <;> rfl

theorem State.accOverflowed_congr {s t : State} (h : t.sr = s.sr) (x : Acc) :
    t.accOverflowed x = s.accOverflowed x := by
  unfold State.accOverflowed; rw [h]

/-- Settles O49: the causes of the result give INTCON1, and it writes the accumulator and its overflow bit alone. -/
theorem accumulatorOverflowTrapsWhenEnabled : Obligations.AccumulatorOverflowTrapsWhenEnabled := by
  intro s c k x v carry31 carry39 saturates enabled ordinary catastrophic overflows trapsCatastrophic traps
  have henabled : enabled = s.overflowTrapEnabled x := (s.overflowTrapEnabled_eq x).symm
  have hordinary : ordinary = causeMask (.overflow x) := by cases x <;> rfl
  have hcatastrophic : catastrophic = causeMask (.catastrophic x) := by cases x <;> rfl
  have hover : overflows ↔ s.accOverflows x carry31 = true := (s.accOverflows_iff x carry31).symm
  have hcat : trapsCatastrophic ↔ s.trapsCatastrophic x carry39 = true := (s.trapsCatastrophic_iff x carry39).symm
  have hcauses : ¬trapsCatastrophic → s.accCauses x carry31 carry39 =
      if overflows ∧ enabled = true then [.overflow x] else [] := fun h => by
    rw [State.accCauses_of_not_catastrophic (Bool.eq_false_iff.mpr (mt hcat.mpr h))]
    simp only [hover, henabled]
  have hcausesCatastrophic : trapsCatastrophic → s.accCauses x carry31 carry39 = [.catastrophic x] ∨
      (enabled = true ∧ s.accCauses x carry31 carry39 = [.overflow x, .catastrophic x]) := fun h => by
    rw [henabled]
    exact State.accCauses_of_catastrophic (hcat.mp h)
  have hquiet : ¬traps → s.accCauses x carry31 carry39 = [] := fun h => by
    rw [hcauses fun h' => h (.inr h'), if_neg fun h' => h (.inl h')]
  obtain ⟨u, o, n, hrun, hset, hok⟩ := runCore_accResult s c k x v carry31 carry39
  obtain ⟨hbit, hkeep, hoab⟩ := s.withAccOverflow_bits x o
  generalize s.accCauses x carry31 carry39 = cs at *
  have heq := s.accLeft_eq x u o n
  have hsr : ((s.accLeft x u o n).finished k cs).sr = (s.withAccOverflow x o).sr := by rw [State.finished_sr, heq]
  have hintcon1 : ((s.accLeft x u o n).finished k cs).intcon1 = s.intcon1 ||| causesMask cs := by
    rw [State.finished_intcon1, heq]
  have hoverflowed : ((s.accLeft x u o n).finished k cs).accOverflowed x = o :=
    (State.accOverflowed_congr hsr x).trans hbit
  refine ⟨_, hrun, State.finished_pc (by rw [heq]) k _, fun h => hoverflowed.trans (hset (hover.mp h)),
    fun hq h => ?noOverflow, fun hq => ?result, ?other, by rw [hsr]; exact hkeep, by rw [hsr]; exact hoab,
    fun h => ?ordinaryAlone, fun h he => ?catastrophicAlone, fun h he => ?both, by rw [frame, State.finished_eq, heq],
    State.finished_sameMemory (by rw [heq]) (by rw [heq]) k _⟩
  case noOverflow =>
    rw [hoverflowed, (hok (hquiet hq)).2]
    exact Bool.eq_false_iff.mpr (mt hover.mpr h)
  case result =>
    rw [State.finished_accA, State.finished_accB, heq, (hok (hquiet hq)).1]
    cases x <;> rfl
  case other =>
    rw [State.finished_accA, State.finished_accB, heq]
    cases x <;> rfl
  case ordinaryAlone =>
    rw [hintcon1, hcauses h]
    split
    · rw [hordinary, causesMask_one]
    · exact BitVec.or_zero
  case catastrophicAlone =>
    have hone := (hcausesCatastrophic h).resolve_right fun ⟨ht, _⟩ => Bool.false_ne_true (he.symm.trans ht)
    rw [hintcon1, hone, hcatastrophic, causesMask_one]
  case both =>
    rw [hintcon1, hcatastrophic, hordinary]
    rcases hcausesCatastrophic h with hone | ⟨-, htwo⟩
    · exact .inl (by rw [hone, causesMask_one])
    · exact .inr (by rw [htwo, causesMask_two, BitVec.or_comm (causeMask _), BitVec.or_assoc])

end Sys2Proof.Machine
end

section
/-! PROOFS. Instructions of the CPU core whose result or access goes to a working register and may trap: the divide, W15
among its results, and the misaligned read (42 R190, R196, R204, R205, R208). -/

namespace Sys2Proof.Machine

/-! ### Two result registers (42 R204, 10 R23) -/

/-- Two registers take results, the second one last. -/
def State.twoResults (s : State) (dq dr : BitVec 4) (q r : Word) : State := (s.setW dq q).setW dr r

section

variable (s : State) (dq dr : BitVec 4) (q r : Word)

theorem State.twoResults_eq : s.twoResults dq dr q r = { s with w := (s.twoResults dq dr q r).w } := by
  simp only [State.twoResults, State.setW_eq]

theorem State.twoResults_getW_of_ne {e : BitVec 4} (hq : e ≠ dq) (hr : e ≠ dr) :
    (s.twoResults dq dr q r).getW e = s.getW e := by
  rw [State.twoResults, State.getW_setW, if_neg hr, State.getW_setW, if_neg hq]

theorem State.twoResults_getW_second : (s.twoResults dq dr q r).getW dr = if dr = 15#4 then evenWord r else r := by
  rw [State.twoResults, State.getW_setW, if_pos rfl]

theorem State.twoResults_getW_first (h : dq ≠ dr) :
    (s.twoResults dq dr q r).getW dq = if dq = 15#4 then evenWord q else q := by
  rw [State.twoResults, State.getW_setW, if_neg h, State.getW_setW, if_pos rfl]

/-- W15 is the last of the two results that went to it. -/
theorem State.twoResults_sp :
    (s.twoResults dq dr q r).sp = if dr = 15#4 then evenWord r else if dq = 15#4 then evenWord q else s.sp := by
  change (s.twoResults dq dr q r).getW 15#4 = _
  rw [State.twoResults, State.getW_setW, State.getW_setW]
  simp only [eq_comm (a := 15#4)]
  split
  · rfl
  · split <;> rfl

/-- A result in W15 has its bit 0 at 0. -/
theorem State.twoResults_sp_even (h : dq = 15#4 ∨ dr = 15#4) :
    (s.twoResults dq dr q r).sp.getLsbD 0 = false := by
  rw [State.twoResults_sp]
  by_cases hr : dr = 15#4
  · rw [if_pos hr]; exact evenWord_even r
  · rw [if_neg hr, if_pos (h.resolve_right hr)]; exact evenWord_even q

/-- The two results leave W15 below the stack: the second one where it goes there, else the first one. -/
theorem State.twoResults_low_iff :
    (dq = 15#4 ∨ dr = 15#4) ∧ (s.twoResults dq dr q r).sp < Config.stackBase ↔
      (dr = 15#4 ∧ r.toNat < 0x0800) ∨ (dr ≠ 15#4 ∧ dq = 15#4 ∧ q.toNat < 0x0800) := by
  rw [State.twoResults_sp]
  by_cases hr : dr = 15#4
  · simp [hr, evenWord_lt_stackBase_iff]
  · by_cases hq : dq = 15#4
    · simp [hr, hq, evenWord_lt_stackBase_iff]
    · simp [hr, hq]

end

/-- Both registers took free values `a` and `b`, and W15 was checked where it is one of them. -/
def State.resultsLost (s : State) (dq dr : BitVec 4) (a b : Word) (draws : Nat) : State :=
  { s with
    w := (s.twoResults dq dr a b).w
    intcon1 :=
      if (dq = 15#4 ∨ dr = 15#4) ∧ (s.twoResults dq dr a b).sp < Config.stackBase then s.intcon1 ||| 0x0004#16
      else s.intcon1
    draws := draws }

/-- What a trapped instruction with two result registers leaves in them is free, and W15 is checked after both. -/
theorem State.blurAll_results (s : State) (n : Nat) (dq dr : BitVec 4) {ws : List CoreWrite}
    (hws : ws = [.reg dq, .reg dr] ∨ ws = [.lost dq, .lost dr]) :
    ∃ a b m, ({ s with draws := n }).blurAll false false ws = s.resultsLost dq dr a b m := by
  refine ⟨Config.freeWord n, Config.freeWord (n + 1), n + 2, ?_⟩
  have hblur : ({ s with draws := n }).blurAll false false ws =
      if dq = 15#4 ∨ dr = 15#4 then
        State.checkSp { s.twoResults dq dr (Config.freeWord n) (Config.freeWord (n + 1)) with draws := n + 2 }
      else { s.twoResults dq dr (Config.freeWord n) (Config.freeWord (n + 1)) with draws := n + 2 } := by
    rcases hws with rfl | rfl <;>
      simp [State.blurAll, State.blur, State.blursSp, State.touchesSp, State.twoResults, State.setW_eq, State.drawn]
  rw [hblur, State.twoResults_eq]
  by_cases hsp : dq = 15#4 ∨ dr = 15#4
  · rw [if_pos hsp, State.checkSp_eq]
    simp only [State.resultsLost, hsp, true_and]
    rfl
  · rw [if_neg hsp]
    simp only [State.resultsLost, hsp, false_and]
    rfl

/-- Past the end of an instruction that writes two registers and INTCON1, what does not depend on its causes. -/
theorem State.finished_results {s u : State} {dq dr : BitVec 4} {a b : Word}
    (hu : u = { s with w := (s.twoResults dq dr a b).w, intcon1 := u.intcon1, draws := u.draws }) (k : Nat)
    (cs : List SoftCause) :
    (dq = 15#4 ∨ dr = 15#4 → (u.finished k cs).sp.getLsbD 0 = false) ∧
      (∀ e, e ≠ dq → e ≠ dr → (u.finished k cs).getW e = s.getW e) ∧
      frame { s with w := (u.finished k cs).w, intcon1 := (u.finished k cs).intcon1 } (u.finished k cs) ∧
      sameMemory s (u.finished k cs) := by
  refine ⟨fun h => ?_, fun e hq hr => ?_, ?_, State.finished_sameMemory (by rw [hu]) (by rw [hu]) k cs⟩
  · rw [State.finished_sp, hu]; exact s.twoResults_sp_even dq dr a b h
  · rw [State.finished_getW, hu]; exact s.twoResults_getW_of_ne dq dr a b hq hr
  · rw [frame, State.finished_eq, hu]

/-! ### The divide (42 R204, R196) -/

/-- The check of W15 after an instruction whose writes are two registers with results. -/
theorem CoreRun.spCauses_of_results {r : CoreRun} {dq dr : BitVec 4} (h : r.writes = [.reg dq, .reg dr]) :
    r.spCauses = if (dq = 15#4 ∨ dr = 15#4) ∧ r.state.sp < Config.stackBase then [.stack] else [] := by
  by_cases hq : dq = 15#4 <;> by_cases hr : dr = 15#4 <;> simp [CoreRun.spCauses, State.touchesSp, h, hq, hr]

/-- A W15 that no rule gives is not checked in the exact run. -/
theorem CoreRun.spCauses_of_lost {r : CoreRun} {dq dr : BitVec 4} (h : r.writes = [.lost dq, .lost dr]) :
    r.spCauses = [] := by
  by_cases hq : dq = 15#4 <;> by_cases hr : dr = 15#4 <;> simp [CoreRun.spCauses, State.touchesSp, h, hq, hr]

theorem runFrom_divide_zero (s : State) (b : Bool) (q r : Word) (dq dr : BitVec 4) :
    runFrom s b [.divide 0 q r dq dr] =
      ⟨s.divideStep 0 q r dq dr, b, false, [.divide], [.lost dq, .lost dr]⟩ := by
  rw [runFrom, CoreRun.spCauses_of_lost (dq := dq) (dr := dr) rfl]
  rfl

theorem runFrom_divide (s : State) (b : Bool) {divisor : Word} (q r : Word) (dq dr : BitVec 4) (h : divisor ≠ 0) :
    runFrom s b [.divide divisor q r dq dr] =
      ⟨s.twoResults dq dr q r, b, false,
        if (dq = 15#4 ∨ dr = 15#4) ∧ (s.twoResults dq dr q r).sp < Config.stackBase then [.stack] else [],
        [.reg dq, .reg dr]⟩ := by
  have hrun : runEffects ⟨s, b, false, [], []⟩ [.divide divisor q r dq dr] =
      ⟨s.twoResults dq dr q r, b, false, [], [.reg dq, .reg dr]⟩ := if_neg h
  rw [runFrom, hrun, CoreRun.spCauses_of_results (dq := dq) (dr := dr) rfl]
  rfl

section

variable (s : State) (c k : Nat) {divisor : Word} (q r : Word) (dq dr : BitVec 4)

theorem runCore_divide_zero :
    ∃ a b n, runCore ⟨c, [.divide 0 q r dq dr], .fallThrough k⟩ s =
      .next ((s.resultsLost dq dr a b n).finished k [.divide]) := by
  obtain ⟨a, b, n, hblur⟩ :=
    s.blurAll_results (s.divideStep 0 q r dq dr).draws dq dr (ws := [.lost dq, .lost dr]) (.inr rfl)
  refine ⟨a, b, n, ?_⟩
  rw [runCore_finished (runFrom_divide_zero s false q r dq dr) rfl, CoreRun.left, if_neg (List.cons_ne_nil _ _), hblur]

theorem runCore_divide_low (h : divisor ≠ 0)
    (hlow : (dq = 15#4 ∨ dr = 15#4) ∧ (s.twoResults dq dr q r).sp < Config.stackBase) :
    ∃ a b n, runCore ⟨c, [.divide divisor q r dq dr], .fallThrough k⟩ s =
      .next ((s.resultsLost dq dr a b n).finished k [.stack]) := by
  have hrun := runFrom_divide s false q r dq dr h
  rw [if_pos hlow] at hrun
  obtain ⟨a, b, n, hblur⟩ :=
    s.blurAll_results (s.twoResults dq dr q r).draws dq dr (ws := [.reg dq, .reg dr]) (.inl rfl)
  refine ⟨a, b, n, ?_⟩
  rw [runCore_finished hrun rfl, CoreRun.left, if_neg (List.cons_ne_nil _ _), hblur]

theorem runCore_divide_ok (h : divisor ≠ 0)
    (hlow : ¬((dq = 15#4 ∨ dr = 15#4) ∧ (s.twoResults dq dr q r).sp < Config.stackBase)) :
    runCore ⟨c, [.divide divisor q r dq dr], .fallThrough k⟩ s =
      .next ((s.twoResults dq dr q r).finished k []) := by
  have hrun := runFrom_divide s false q r dq dr h
  rw [if_neg hlow] at hrun
  exact runCore_finished hrun rfl

end

/-- Settles O50, by the three ways a divide ends: by a zero divisor, by a W15 below the stack, or with its results. -/
theorem divideByZeroTraps : Obligations.DivideByZeroTraps := by
  intro s c k divisor q r dq dr low
  have hlow := s.twoResults_low_iff dq dr q r
  by_cases hzero : divisor = 0
  · subst hzero
    obtain ⟨a, b, n, hrun⟩ := runCore_divide_zero s c k q r dq dr
    have hsp : ((s.resultsLost dq dr a b n).finished k [.divide]).sp = (s.twoResults dq dr a b).sp :=
      State.finished_sp _ k _
    refine ⟨_, hrun, State.finished_pc (u := s.resultsLost dq dr a b n) rfl k _, fun _ => ?_,
      fun h => absurd rfl h, fun h => absurd rfl h, State.finished_results rfl k _⟩
    rw [hsp, State.finished_intcon1, State.resultsLost, causesMask_one]
    by_cases hbad : (dq = 15#4 ∨ dr = 15#4) ∧ (s.twoResults dq dr a b).sp.toNat < 0x0800
    · rw [if_pos hbad]
      exact (congrArg (· ||| _) (if_pos hbad)).trans (or_bits _ _ _ _ rfl)
    · rw [if_neg hbad]
      exact congrArg (· ||| _) (if_neg hbad)
  · by_cases hbad : low
    · obtain ⟨a, b, n, hrun⟩ := runCore_divide_low s c k q r dq dr hzero (hlow.mpr hbad)
      refine ⟨_, hrun, State.finished_pc (u := s.resultsLost dq dr a b n) rfl k _, fun h => absurd h hzero,
        fun _ _ => ?_, fun _ h => absurd hbad h, State.finished_results rfl k _⟩
      rw [State.finished_intcon1, State.resultsLost, causesMask_one]
      dsimp only
      split
      · exact or_bits _ _ _ _ rfl
      · rfl
    · have heq := s.twoResults_eq dq dr q r
      refine ⟨_, runCore_divide_ok s c k q r dq dr hzero (mt hlow.mp hbad), State.finished_pc (by rw [heq]) k _,
        fun h => absurd h hzero, fun _ h => absurd h hbad, fun _ _ => ⟨?_, ?_, fun hne => ?_⟩,
        State.finished_results (by rw [heq]) k _⟩
      · rw [State.finished_intcon1, heq]; exact BitVec.or_zero
      · rw [State.finished_getW]; exact s.twoResults_getW_second dq dr q r
      · rw [State.finished_getW]; exact s.twoResults_getW_first dq dr q r hne

/-! ### Misaligned reads (42 R205, R208) -/

/-- A word read at an odd address raises the address error, and its register takes a free value. -/
theorem CoreRun.apply_readWord_misaligned (r : CoreRun) {a : Word} (d : BitVec 4) (h : misaligned a = true) :
    r.apply (.readWord (.direct a) d) =
      { r.lose d with state := (r.lose d).state.drawn 1, addressError := true } := by
  simp [CoreRun.apply, CoreRun.load, CoreRun.at, resolve, CoreRun.lose, h]

/-- A run whose data-space writes are inhibited writes no word. -/
theorem CoreRun.apply_writeWord_inhibited {r : CoreRun} (f v : Word) (h : r.inhibited = true) :
    r.apply (.writeWord (.direct f) v) = { r with addressError := r.addressError || misaligned f } := by
  cases hf : misaligned f with
  | true => simp [CoreRun.apply, resolve, CoreRun.at, hf]
  | false => simp [CoreRun.apply, resolve, CoreRun.at, CoreRun.storeWord, CoreRun.store, hf, h]

/-- W`d` took a free value `x`. -/
def State.registerLost (s : State) (d : BitVec 4) (x : Word) (draws : Nat) : State :=
  { s with w := (s.setW d x).w, draws := draws }

section

variable (s : State) {a : Word} (f v : Word) {d : BitVec 4} (ha : misaligned a = true)
include ha

theorem runFrom_misaligned_addressError :
    (runFrom s false [.writeWord (.direct f) v, .readWord (.direct a) d]).addressError = true := by
  rw [runFrom, runEffects, runEffects, runEffects, CoreRun.apply_readWord_misaligned _ d ha]

/-- The inhibited run of a write and a misaligned read writes the register read into alone. -/
theorem runFrom_misaligned_inhibited (hd : d ≠ 15#4) :
    runFrom s true [.writeWord (.direct f) v, .readWord (.direct a) d] =
      ⟨(s.setW d (Config.freeWord s.draws)).drawn 1, true, true, [], [.lost d]⟩ := by
  rw [runFrom, runEffects, runEffects, runEffects, CoreRun.apply_writeWord_inhibited f v rfl,
    CoreRun.apply_readWord_misaligned _ d ha]
  simp [CoreRun.lose, CoreRun.spCauses, State.touchesSp, hd]

/-- Of a write and a misaligned read only the free value of the register read into is left. -/
theorem runCore_misaligned (c k : Nat) (hd : d ≠ 15#4) :
    ∃ x n, runCore ⟨c, [.writeWord (.direct f) v, .readWord (.direct a) d], .fallThrough k⟩ s =
      ((s.registerLost d x n).finished k []).raiseAddressError := by
  rw [runCore_of_addressError (runFrom_misaligned_addressError s f v ha) (runFrom_misaligned_inhibited s f v ha hd)]
  generalize ((s.setW d (Config.freeWord s.draws)).drawn 1).draws = n
  refine ⟨Config.freeWord n, n + 1, ?_⟩
  simp [State.blurAll, State.blur, State.blursSp, State.touchesSp, State.registerLost, hd, State.setW_eq, State.drawn]

end

/-- Settles O51: the inhibited run leaves the register read into, and nothing stands against the address error. -/
theorem misalignedReadInhibitsTheWrites : Obligations.MisalignedReadInhibitsTheWrites := by
  intro s a f v d ha hd hosc hipl
  obtain ⟨x, n, hrun⟩ := runCore_misaligned s f v ha 1 1 hd
  have hintcon1 : ((s.registerLost d x n).finished 1 []).intcon1 = s.intcon1 :=
    (State.finished_intcon1 _ 1 []).trans BitVec.or_zero
  have hgetW (e : BitVec 4) (he : e ≠ d) : ((s.registerLost d x n).finished 1 []).getW e = s.getW e :=
    (State.finished_getW _ 1 [] e).trans ((s.getW_setW d e x).trans (if_neg he))
  have hframe : frame { s with
      w := ((s.registerLost d x n).finished 1 []).w
      intcon1 := ((s.registerLost d x n).finished 1 []).intcon1 } ((s.registerLost d x n).finished 1 []) := by
    rw [frame, State.finished_eq, State.registerLost]
  have hcpuIpl : (((s.registerLost d x n).finished 1 []).flagTrap .address).cpuIpl = s.cpuIpl :=
    State.cpuIpl_congr (congrArg (·.extractLsb' 0 8) (State.finished_sr _ 1 []))
      (congrArg (·.getLsbD 3) (State.finished_corcon _ 1 []))
  have hoscillator : (((s.registerLost d x n).finished 1 []).flagTrap .address).trapFlag .oscillator = false := by
    rw [State.flagTrap_trapFlag, State.trapFlag, hintcon1]
    simpa [State.trapFlag] using hosc
  refine ⟨_, hrun.trans (State.settleHardTrap_address_next hoscillator (hcpuIpl ▸ hipl)), ?_, hgetW,
    frame_flagTrap hframe .address, State.finished_sameMemory (u := s.registerLost d x n) rfl rfl 1 []⟩
  rw [State.flagTrap_intcon1, hintcon1]
  rfl

end Sys2Proof.Machine
end

section
/-! PROOFS. The count of an active `DISI` (60 R241): the elementary updates write INTCON2.DISI and DISICNT together, or
write neither. -/

namespace Sys2Proof.Machine

/-- Whether the count of an active `DISI` is right is read from the DISI bit and the count alone. -/
theorem disiOk_of_eq {s t : State} (hactive : t.disiActive = s.disiActive) (hcount : t.disicnt = s.disicnt)
    (h : s.disiOk) : t.disiOk := fun ht => by
  rw [hcount]; exact h (hactive ▸ ht)

/-- `DISI #k` is active only with a count that is not zero (40 R131). -/
theorem State.withDisi_disiOk (s : State) (k : BitVec 14) : ({ s with disicnt := k }.withDisi (k != 0)).disiOk := by
  intro hactive
  rw [State.withDisi_disiActive] at hactive
  exact bne_iff_ne.mp hactive

/-- The cycle that takes the count to zero ends the `DISI` (40 R133). -/
theorem State.countDown_disiOk {s : State} (h : s.disiOk) : s.countDown.disiOk := by
  intro hactive
  rw [State.countDown_eq] at hactive ⊢
  dsimp only [State.disiActive] at hactive ⊢
  by_cases h1 : s.disicnt = 1
  · rw [if_pos h1, getLsbD_setBitTo, if_pos ⟨rfl, by decide⟩] at hactive
    exact absurd hactive Bool.false_ne_true
  · rw [if_neg h1] at hactive
    have h0 : s.disicnt ≠ 0 := h hactive
    rw [if_neg h0]
    exact fun hz => h1 (sub_eq_zero.mp hz)

/-- A software write to INTCON2 leaves DISI (41 R169). -/
theorem State.writeIntcon2_disiActive (s : State) (v : Word) : (s.writeIntcon2 v).disiActive = s.disiActive := by
  rw [State.disiActive, State.writeIntcon2_intcon2, getLsbD_merge, if_neg (by decide)]
  rfl

theorem reset_disiOk : State.reset.disiOk := by decide

/-- Each elementary update leaves an active `DISI` with a count that is not zero. -/
theorem kept_disiOk : Kept State.disiOk where
  pc _ _ h := h
  advance {s} k h := by rw [State.advance_frame s (2 * k)]; exact h
  setSp _ h := h
  reg _ _ _ h := h
  sr _ _ h := h
  accOverflow _ _ h := h
  coreFlags _ h := h
  doLevel _ h := h
  conflict h := h
  ipl3 _ h := h
  flag _ _ _ h := h
  corcon _ h := h
  intcon1 _ h := h
  intcon2 {s} v := disiOk_of_eq (s.writeIntcon2_disiActive v) rfl
  ifs _ _ h := h
  iec _ _ h := h
  ipc _ _ h := h
  splim _ _ h := h
  disi {s} k _ := s.withDisi_disiOk k
  disicnt _ hinactive _ := fun hactive => absurd (hinactive.symm.trans hactive) Bool.false_ne_true
  countDown := State.countDown_disiOk
  ram _ _ _ _ h := h
  inttreg _ _ _ h := h
  irqFlag _ h := by rw [State.setIrqFlag_frame]; exact h
  reset _ _ := reset_disiOk
  rest _ _ _ _ _ _ _ _ _ _ _ _ _ _ h := h

/-- Settles O57: the elementary updates keep the count of an active `DISI` right, so every step does. -/
theorem stepKeepsTheDisiCount : Obligations.StepKeepsTheDisiCount :=
  fun _ t h hst => kept_disiOk.step h t hst

end Sys2Proof.Machine
end

section
/-! PROOFS. Which request arbitration returns (60 R226, R240-R243), said once for the traps, for the interrupts and for
both: the winner among what is requested, or none where nothing is. -/

namespace Sys2Proof.Machine

/-! ### What requests the CPU (60 R226, R240, R241) -/

/-- An interrupt is requested where it is pending and enabled, above the CPU priority and not masked (60 R240). -/
theorem State.irqRequested_iff (s : State) (ipc : Vector Word 11) (n : Nat) :
    s.irqRequested ipc n = true ↔
      s.irqFlag n = true ∧ s.irqEnable n = true ∧ s.cpuIpl < priorityIn ipc n ∧
        ¬(s.disiActive = true ∧ 1 ≤ priorityIn ipc n ∧ priorityIn ipc n ≤ 6) := by
  simp only [State.irqRequested, State.disiMasked, Bool.and_eq_true, Bool.not_eq_true', decide_eq_true_eq,
    ← Bool.not_eq_true, and_assoc]

/-- Settles O34: the gates in the model's terms. -/
theorem interruptRequestsPassTheGates : Obligations.InterruptRequestsPassTheGates := fun s n =>
  s.irqRequested_iff s.ipc n

/-! ### The winner (60 R242, R243) -/

theorem Trap.mem_all (t : Trap) : t ∈ Trap.all := by cases t <;> decide

theorem Trap.level_injective : Function.Injective Trap.level := by
  intro t u
  cases t <;> cases u <;> decide

/-- No trap is found where none is requested. -/
theorem State.topTrap_eq_none_iff (s : State) : s.topTrap = none ↔ ∀ t, s.trapRequested t = false := by
  simp only [State.topTrap, Option.map_eq_none_iff, List.find?_eq_none, Bool.not_eq_true]
  exact ⟨fun h t => h t t.mem_all, fun h t _ => h t⟩

/-- The trap found is requested, and no other requested one is above it: the search goes down the levels. -/
theorem State.topTrap_eq_some {s : State} {r : Request} (h : s.topTrap = some r) :
    ∃ t : Trap, s.trapRequested t = true ∧ r = ⟨t.vector, t.level⟩ ∧
      ∀ u : Trap, s.trapRequested u = true → u.level ≤ t.level := by
  obtain ⟨t, hfind, rfl⟩ := Option.map_eq_some_iff.mp h
  obtain ⟨ht, above, below, hall, habove⟩ := List.find?_eq_some_iff_append.mp hfind
  have hsorted : (above ++ t :: below).Pairwise (fun a b : Trap => b.level ≤ a.level) :=
    hall ▸ (by decide : Trap.all.Pairwise fun a b : Trap => b.level ≤ a.level)
  refine ⟨t, ht, rfl, fun u hu => ?_⟩
  rcases List.mem_append.mp (hall ▸ u.mem_all) with hmem | hmem
  · have hnot := habove u hmem
    rw [hu] at hnot
    exact absurd hnot (by decide)
  · rcases List.mem_cons.mp hmem with rfl | hmem
    · exact le_refl _
    · exact List.rel_of_pairwise_cons (List.pairwise_append.mp hsorted).2.1 hmem

/-- A requested trap that no requested one is above is the one found. -/
theorem State.topTrap_of_greatest {s : State} {u : Trap} (hu : s.trapRequested u = true)
    (hmax : ∀ x : Trap, s.trapRequested x = true → x.level ≤ u.level) : s.topTrap = some ⟨u.vector, u.level⟩ := by
  cases htop : s.topTrap with
  | none => exact absurd (s.topTrap_eq_none_iff.mp htop u) (by rw [hu]; decide)
  | some r =>
    obtain ⟨t, ht, rfl, htmax⟩ := State.topTrap_eq_some htop
    rw [Trap.level_injective (Nat.le_antisymm (htmax u hu) (hmax t ht))]

/-- An implemented source requests the CPU. -/
def State.sourceRequested (s : State) (ipc : Vector Word 11) (n : Nat) : Prop :=
  implementsSource s.device n = true ∧ s.irqRequested ipc n = true

/-- The search through all the sources finds none where none requests the CPU. -/
theorem State.topIrq_eq_none {s : State} {ipc : Vector Word 11} (h : s.topIrq ipc = none) (n : Nat) :
    ¬s.sourceRequested ipc n := by
  rintro ⟨himpl, hreq⟩
  have hcases := topIrqOf_cases s ipc Config.listedSources (by decide)
  rw [State.topIrq] at h
  rw [h] at hcases
  have hnot := hcases n (implementsSource_bounds himpl).1
  rw [himpl, hreq] at hnot
  exact absurd hnot (by decide)

/-- The source found has the greatest priority, and the least number among those that have it. -/
theorem State.topIrq_eq_some {s : State} {ipc : Vector Word 11} {r : Request} (h : s.topIrq ipc = some r) :
    ∃ n, s.sourceRequested ipc n ∧ r = ⟨n + 8, priorityIn ipc n⟩ ∧
      ∀ m, s.sourceRequested ipc m →
        priorityIn ipc m < priorityIn ipc n ∨ (priorityIn ipc m = priorityIn ipc n ∧ n ≤ m) := by
  have hcases := topIrqOf_cases s ipc Config.listedSources (by decide)
  rw [State.topIrq] at h
  rw [h] at hcases
  obtain ⟨n, -, hr, hreq, hmax⟩ := hcases
  refine ⟨n, (Bool.and_eq_true _ _).mp hreq, hr, fun m hm => ?_⟩
  exact hmax m (implementsSource_bounds hm.1).1 ((Bool.and_eq_true _ _).mpr hm)

/-- A trap wins over every interrupt (60 R243). -/
theorem State.arbitrate_of_topTrap {s : State} {r : Request} (ipc : Vector Word 11) (h : s.topTrap = some r) :
    s.arbitrate ipc = some r := by
  rw [State.arbitrate, h]

/-- Without a requested trap the interrupts are searched. -/
theorem State.arbitrate_of_no_trap {s : State} (ipc : Vector Word 11) (h : s.topTrap = none) :
    s.arbitrate ipc = s.topIrq ipc := by
  rw [State.arbitrate, h]

/-! ### Traps by vector, level and bit (60 R221) -/

/-- The row of a trap: its vector, its level and its bit of INTCON1. -/
def Trap.row (t : Trap) : Nat × Nat × Nat := (t.vector, t.level, t.flagBit)

theorem Trap.mem_rows_iff (p : Nat × Nat × Nat) :
    p ∈ [(1, 14, 1), (2, 13, 3), (3, 12, 2), (4, 11, 4)] ↔ ∃ t : Trap, p = t.row := by
  change p ∈ Trap.all.map Trap.row ↔ _
  rw [List.mem_map]
  exact ⟨fun ⟨t, _, ht⟩ => ⟨t, ht.symm⟩, fun ⟨t, ht⟩ => ⟨t, t.mem_all, ht.symm⟩⟩

/-- A row requests the CPU where its trap does. -/
def State.rowRequested (s : State) (p : Nat × Nat × Nat) : Prop :=
  p ∈ [(1, 14, 1), (2, 13, 3), (3, 12, 2), (4, 11, 4)] ∧ s.intcon1.getLsbD p.2.2 = true ∧ s.cpuIpl < p.2.1

theorem State.rowRequested_iff (s : State) (p : Nat × Nat × Nat) :
    s.rowRequested p ↔ ∃ t : Trap, p = t.row ∧ s.trapRequested t = true := by
  rw [State.rowRequested, Trap.mem_rows_iff]
  constructor
  · rintro ⟨⟨t, rfl⟩, hreq⟩
    exact ⟨t, rfl, (s.trapRequested_iff t).mpr hreq⟩
  · rintro ⟨t, rfl, hreq⟩
    exact ⟨⟨t, rfl⟩, (s.trapRequested_iff t).mp hreq⟩

theorem State.not_rowRequested {s : State} (h : s.topTrap = none) (p : Nat × Nat × Nat) : ¬s.rowRequested p := by
  rw [State.rowRequested_iff]
  rintro ⟨t, -, hreq⟩
  exact absurd (s.topTrap_eq_none_iff.mp h t) (by rw [hreq]; decide)

/-! ### The statements -/

/-- Settles O35, by whether a trap is requested and, if none is, whether a source is. -/
theorem arbitrationPicksTheWinner : Obligations.ArbitrationPicksTheWinner := by
  intro s trap irq
  cases htrap : s.topTrap with
  | some r =>
    rw [State.arbitrate_of_topTrap _ htrap]
    obtain ⟨t, hreq, rfl, hmax⟩ := State.topTrap_eq_some htrap
    refine .inl ⟨t.row, (s.rowRequested_iff _).mpr ⟨t, rfl, hreq⟩, rfl, fun q hq => ?_⟩
    obtain ⟨u, rfl, hu⟩ := (s.rowRequested_iff q).mp hq
    exact hmax u hu
  | none =>
    rw [State.arbitrate_of_no_trap _ htrap]
    cases hirq : s.topIrq s.ipc with
    | none => exact ⟨State.not_rowRequested htrap, State.topIrq_eq_none hirq⟩
    | some r => exact .inr ⟨State.not_rowRequested htrap, State.topIrq_eq_some hirq⟩

/-- Settles O37: a requested trap and a requested interrupt are both above the CPU priority, and an interrupt's priority
is at most 7. -/
theorem arbitrationObeysTheCpuPriority : Obligations.ArbitrationObeysTheCpuPriority := by
  intro s r harb
  cases htrap : s.topTrap with
  | some q =>
    rw [State.arbitrate_of_topTrap _ htrap] at harb
    cases harb
    obtain ⟨t, hreq, rfl, -⟩ := State.topTrap_eq_some htrap
    exact ⟨((s.trapRequested_iff t).mp hreq).2, fun _ => t.level_ge⟩
  | none =>
    rw [State.arbitrate_of_no_trap _ htrap] at harb
    obtain ⟨n, ⟨-, hreq⟩, rfl, -⟩ := State.topIrq_eq_some harb
    obtain ⟨-, -, habove, -⟩ := (s.irqRequested_iff _ n).mp hreq
    have hle := priorityIn_le s.ipc n
    exact ⟨habove, fun h7 => absurd (Nat.lt_of_le_of_lt h7 habove) (Nat.not_lt.mpr hle)⟩

end Sys2Proof.Machine
end

section
/-! PROOFS. The raise of a hard trap (60 R245), and what a turn of the CPU does with a request: the entry, the deferral
or the wake-up (60 R246-R248, R270, R271). -/

namespace Sys2Proof.Machine

/-! ### The raise of a hard trap (60 R245) -/

theorem State.hardTrapConflict_iff (s : State) (t : Trap) :
    s.hardTrapConflict t = true ↔
      (∃ u : Trap, t.level < u.level ∧ s.trapFlag u = true) ∨ (s.ipl3 = true ∧ t.level < s.cpuIpl) := by
  simp only [State.hardTrapConflict, Bool.or_eq_true, List.any_eq_true, Bool.and_eq_true, decide_eq_true_eq]
  exact or_congr_left ⟨fun ⟨u, _, h⟩ => ⟨u, h⟩, fun ⟨u, h⟩ => ⟨u, u.mem_all, h⟩⟩

theorem State.settleHardTrap_of_conflict {s : State} {t : Trap} (h : s.hardTrapConflict t = true) :
    s.settleHardTrap t = .next { s with conflictDue := true } := by
  rw [State.settleHardTrap, h, Bool.or_true, if_pos rfl]

theorem State.settleHardTrap_at_level {s : State} {t : Trap} (h : s.hardTrapConflict t = false)
    (hdue : s.conflictDue = false) (hlevel : s.cpuIpl = t.level) :
    s.settleHardTrap t = .fault (.unacknowledgeableHardTrap t.level) := by
  rw [State.settleHardTrap, h, hdue, Bool.or_false, if_neg Bool.false_ne_true, if_pos hlevel]

/-- Away from its own level and with no conflict of its own, the raise changes nothing: a conflict due stays due. -/
theorem State.settleHardTrap_next {s : State} {t : Trap} (h : s.hardTrapConflict t = false)
    (hlevel : s.cpuIpl ≠ t.level) : s.settleHardTrap t = .next s := by
  rw [State.settleHardTrap, h, Bool.or_false, if_neg hlevel]
  split
  · rename_i hdue
    rw [← hdue]
  · rfl

/-- The turn at which the conflict reset is due is that reset, whatever the turn chooses (00 R12). -/
theorem State.cpuTurn_of_conflictDue {s : State} (t : Turn) (h : s.conflictDue = true) :
    s.cpuTurn t = .next (s.deviceReset .trapConflict) := by
  rw [State.cpuTurn, if_pos h]

/-- Settles O40: the three outcomes of the raise, and the reset that a conflict leads to. -/
theorem hardTrapIsSettledByItsLevel : Obligations.HardTrapIsSettledByItsLevel := by
  intro s t _ higher
  have hno (h : ¬higher) : s.hardTrapConflict t = false := by
    rw [← Bool.not_eq_true, State.hardTrapConflict_iff]; exact h
  refine ⟨fun h => ?conflict, fun h hdue => State.settleHardTrap_at_level (hno h) hdue,
    fun h => State.settleHardTrap_next (hno h)⟩
  case conflict =>
    refine ⟨_, State.settleHardTrap_of_conflict ((s.hardTrapConflict_iff t).mpr h), rfl, fun c => ?_⟩
    exact ⟨_, State.cpuTurn_of_conflictDue c rfl, rfl, rfl, rfl, rfl, rfl, rfl, rfl, rfl, rfl⟩

/-! ### The boundary (60 R246-R248) -/

theorem State.cpuTurn_of_run {s : State} (t : Turn) (hrun : s.pmode = .run) (hdue : s.conflictDue = false) :
    s.cpuTurn t = s.boundary t := by
  rw [State.cpuTurn, hdue, if_neg Bool.false_ne_true, hrun]

/-- Without a hazardous write before it, arbitration sees the priorities as they are (70 R320). -/
theorem State.priorities_of_not_stale {s : State} (t : Turn) (h : s.ipcStale = none) : s.priorities t = s.ipc := by
  rw [State.priorities, h]

/-- A request that may not be deferred, or that the turn does not defer, is entered. -/
theorem State.boundary_enters {s : State} {t : Turn} {r : Request} (harb : s.arbitrate (s.priorities t) = some r)
    (h : s.mayDefer r = false ∨ t.defer = false) :
    s.boundary t = s.atBoundary.takeException r.vector r.level := by
  have hand : (s.mayDefer r && t.defer) = false := Bool.and_eq_false_iff.mpr h
  rw [State.boundary, harb]
  dsimp only
  rw [hand, if_neg Bool.false_ne_true]

/-- A request that may be deferred waits for one more instruction where the turn defers it. -/
theorem State.boundary_defers {s : State} {t : Turn} {r : Request} (harb : s.arbitrate (s.priorities t) = some r)
    (hmay : s.mayDefer r = true) (hdefer : t.defer = true) :
    s.boundary t = State.instruction { s.atBoundary with irqSkid := deferredSkid r } t := by
  rw [State.boundary, harb]
  dsimp only
  rw [hmay, hdefer, if_pos (Bool.and_true true)]

/-- A deferred interrupt that arbitration no longer returns is entered where the turn has it so (70 R321). -/
theorem State.boundary_late {s : State} {t : Turn} {r : Request} (harb : s.arbitrate (s.priorities t) = none)
    (hlate : s.lateRequest t = some r) :
    s.boundary t =
      andThen (s.atBoundary.takeException r.vector r.level) fun u => .next { u with irqSkid := .fresh } := by
  rw [State.boundary, harb]
  dsimp only
  rw [hlate]

/-- No hard trap is deferred (60 R224, R248). -/
theorem State.mayDefer_of_hard (s : State) {r : Request} (h : 13 ≤ r.level) : s.mayDefer r = false := by
  unfold State.mayDefer
  split
  · rfl
  · rfl
  · exact if_pos h
  · exact if_pos h

/-- No trap is deferred once a soft trap has waited as long as it may (60 R248). -/
theorem State.mayDefer_of_due {s : State} {r : Request} (hdue : s.softTrapDue = true) (h : 8 ≤ r.level) :
    s.mayDefer r = false := by
  unfold State.mayDefer
  rw [hdue, if_pos h, if_pos h]
  split
  · rfl
  · rfl
  · exact ite_self _
  · exact ite_self _

/-- No second deferral follows the first, and none follows a wake-up (60 R247, R271). -/
theorem State.mayDefer_of_owed {s : State} (r : Request)
    (h : (∃ v l, s.irqSkid = .deferred v l) ∨ s.irqSkid = .woken) : s.mayDefer r = false := by
  rcases h with ⟨v, l, h⟩ | h <;> rw [State.mayDefer, h]

/-- With the skid fresh an interrupt may be deferred (60 R247). -/
theorem State.mayDefer_of_fresh {s : State} {r : Request} (hskid : s.irqSkid = .fresh) (h : r.level < 8) :
    s.mayDefer r = true := by
  rw [State.mayDefer, hskid]
  dsimp only
  rw [if_neg (by omega), if_neg (by omega)]

/-- Settles O41: the trap is the one that arbitration returns, and it is not deferred. -/
theorem hardTrapsAreEnteredAtOnce : Obligations.HardTrapsAreEnteredAtOnce := by
  intro s t u hrun hdue hhard hreq hmax
  rw [State.cpuTurn_of_run t hrun hdue]
  exact State.boundary_enters (State.arbitrate_of_topTrap _ (State.topTrap_of_greatest hreq hmax))
    (.inl (s.mayDefer_of_hard (of_decide_eq_true hhard)))

/-- Settles O42: after a deferral or a wake-up nothing may be deferred; with the skid fresh the turn chooses. -/
theorem deferredRequestsAreEnteredNext : Obligations.DeferredRequestsAreEnteredNext := by
  refine ⟨?owed, ?late, ?fresh⟩
  case owed =>
    intro s t r hrun hdue hstale howed harb
    rw [State.cpuTurn_of_run t hrun hdue]
    rw [← State.priorities_of_not_stale t hstale] at harb
    exact State.boundary_enters harb (.inl (State.mayDefer_of_owed r howed))
  case late =>
    intro s u t v l hrun hdue hstale hskid harb hlate hentry
    have hreq : s.lateRequest t = some ⟨v, l⟩ := by
      rw [State.lateRequest, hskid]; exact if_pos hlate
    rw [← State.priorities_of_not_stale t hstale] at harb
    rw [State.cpuTurn_of_run t hrun hdue, State.boundary_late harb hreq, hentry]
    rfl
  case fresh =>
    intro s t r hrun hdue hstale hskid harb hlevel
    rw [State.cpuTurn_of_run t hrun hdue]
    rw [← State.priorities_of_not_stale t hstale] at harb
    refine ⟨fun hdefer => State.boundary_enters harb (.inr hdefer), fun hdefer => ?_⟩
    have hskid' : deferredSkid r = .deferred r.vector r.level := if_neg (Nat.not_le.mpr hlevel)
    rw [← hskid']
    exact State.boundary_defers harb (State.mayDefer_of_fresh hskid hlevel) hdefer

/-- A requested soft trap of age two has waited as long as it may. -/
theorem State.softTrapDue_of_age {s : State} {u : Trap} (hu : u = .stack ∨ u = .math)
    (hreq : s.trapRequested u = true) (hage : 2 ≤ if u = .stack then s.stkAge else s.mathAge) :
    s.softTrapDue = true := by
  rw [State.softTrapDue, Bool.or_eq_true, Bool.and_eq_true, Bool.and_eq_true, decide_eq_true_eq, decide_eq_true_eq]
  rcases hu with rfl | rfl
  · exact .inl ⟨hreq, hage⟩
  · exact .inr ⟨hreq, hage⟩

/-- Settles O43: arbitration returns a requested trap of the greatest level, and with a soft trap due none is
deferred. -/
theorem softTrapsWaitAtMostTwoCycles : Obligations.SoftTrapsWaitAtMostTwoCycles := by
  intro s t u hrun hdue hu hreq hage
  cases htop : s.topTrap with
  | none => exact absurd (s.topTrap_eq_none_iff.mp htop u) (by rw [hreq]; decide)
  | some r =>
    obtain ⟨w, hw, rfl, hmax⟩ := State.topTrap_eq_some htop
    refine ⟨w, hw, hmax u hreq, ?_⟩
    rw [State.cpuTurn_of_run t hrun hdue]
    exact State.boundary_enters (State.arbitrate_of_topTrap _ htop)
      (.inl (State.mayDefer_of_due (State.softTrapDue_of_age hu hreq hage) (Nat.le_trans (by decide) w.level_ge)))

/-! ### Wake-up (60 R270, R271) -/

/-- An implemented source that is pending, enabled and of priority 1 or more asks for the wake-up. -/
theorem State.wakeRequest_iff (s : State) :
    s.wakeRequest = true ↔ ∃ n, implementsSource s.device n = true ∧ s.irqFlag n = true ∧ s.irqEnable n = true ∧
      1 ≤ s.irqPriority n := by
  simp only [State.wakeRequest, List.any_eq_true, Bool.and_eq_true, decide_eq_true_eq, and_assoc]
  exact exists_congr fun n => and_iff_right_of_imp fun h => (implementsSource_bounds h.1).1

theorem State.cpuTurn_of_asleep {s : State} (t : Turn) (hmode : s.pmode ≠ .run) (hdue : s.conflictDue = false) :
    s.cpuTurn t = s.asleep t := by
  rw [State.cpuTurn, hdue, if_neg Bool.false_ne_true]
  split
  · rename_i hrun; exact absurd hrun hmode
  · rfl
  · rfl

/-- Settles O47: a turn of the sleeping CPU asks for the wake-up first, then for a requested trap. -/
theorem wakeUpNeedsAnEnabledSource : Obligations.WakeUpNeedsAnEnabledSource := by
  intro s t hmode hdue wake
  rw [State.cpuTurn_of_asleep t hmode hdue, State.asleep]
  refine ⟨fun h => if_pos (s.wakeRequest_iff.mpr h), fun h htraps => ?_⟩
  rw [if_neg (mt s.wakeRequest_iff.mp h), s.topTrap_eq_none_iff.mpr htraps]

end Sys2Proof.Machine
end

section
/-! PROOFS. The events of the environment (60 R227, R230, R232): an interrupt request, an edge at a pin, an oscillator
failure. -/

namespace Sys2Proof.Machine

/-! ### Interrupt requests (60 R230, R232) -/

/-- Every flag after `IrqEvent` of an implemented source. -/
theorem State.irqFlag_setIrqFlag_of_implemented (s : State) {n : Nat} (h : implementsSource s.device n = true)
    (m : Nat) : (s.setIrqFlag n).irqFlag m = (s.irqFlag m || decide (m = n)) := by
  obtain ⟨-, hn, -⟩ := implementsSource_bounds h
  rw [State.irqFlag_setIrqFlag, h, decide_eq_true (by omega : n < 48), Bool.and_self, Bool.true_and]

/-- `IrqEvent` of a source that the device lacks has no effect (log 42). -/
theorem State.setIrqFlag_of_missing {s : State} {n : Nat} (h : implementsSource s.device n = false) :
    s.setIrqFlag n = s := by
  rw [State.setIrqFlag, h]; rfl

/-- Settles O44: the entry is taken from the schedule, then the flag is set. -/
theorem irqEventSetsTheFlag : Obligations.IrqEventSetsTheFlag := by
  intro s n rest hinputs himpl
  have hstep : step s = .next (State.setIrqFlag { s with inputs := rest } n) := by
    rw [step, State.proceed, hinputs]; rfl
  exact ⟨_, hstep, State.irqFlag_setIrqFlag_of_implemented { s with inputs := rest } himpl,
    State.setIrqFlag_frame _ n⟩

/-- The state with the level of a pin recorded (60 R232). -/
def State.withPin (s : State) (x : Fin 3) (dir : Edge) : State :=
  { s with pin := s.pin.set x (decide (dir = .rising)) x.isLt }

/-- INTxEP selects the positive edge at 0 and the negative edge at 1 (10 R40). -/
def State.edgeSelected (s : State) (x : Fin 3) (dir : Edge) : Prop :=
  (s.edgePolarity x = false ∧ dir = .rising) ∨ (s.edgePolarity x = true ∧ dir = .falling)

theorem State.edgeSelected_iff (s : State) (x : Fin 3) (dir : Edge) :
    s.edgeSelected x dir ↔ s.edgePolarity x = decide (dir = .falling) := by
  unfold State.edgeSelected
  cases dir <;> simp

theorem State.pinEdge_of_selected {s : State} {x : Fin 3} {dir : Edge} (h : s.edgeSelected x dir) :
    s.pinEdge x dir = (s.withPin x dir).setIrqFlag (pinSource x) := if_pos ((s.edgeSelected_iff x dir).mp h)

theorem State.pinEdge_of_not_selected {s : State} {x : Fin 3} {dir : Edge} (h : ¬s.edgeSelected x dir) :
    s.pinEdge x dir = s.withPin x dir := if_neg (mt (s.edgeSelected_iff x dir).mpr h)

/-- An edge changes nothing but the pins' levels and the flags. -/
theorem State.pinEdge_frame (s : State) (x : Fin 3) (dir : Edge) :
    s.pinEdge x dir = { s.withPin x dir with ifs := (s.pinEdge x dir).ifs } := by
  by_cases h : s.edgeSelected x dir
  · rw [State.pinEdge_of_selected h]; exact State.setIrqFlag_frame _ _
  · rw [State.pinEdge_of_not_selected h]

theorem State.pinEdge_pin (s : State) (x : Fin 3) (dir : Edge) :
    (s.pinEdge x dir).pin = s.pin.set x (decide (dir = .rising)) x.isLt := by
  rw [State.pinEdge_frame]; rfl

/-- The request numbers of INT0, INT1 and INT2 (60 R232). -/
theorem pinSource_eq (x : Fin 3) : pinSource x = if x = 0 then 0 else if x = 1 then 16 else 17 := by
  fin_cases x <;> rfl

/-- Settles O45: the level is recorded on every edge, and the selected edge is an `IrqEvent` of the pin's source. -/
theorem pinEdgeRequestsOnTheSelectedEdge : Obligations.PinEdgeRequestsOnTheSelectedEdge := by
  intro s x dir
  refine ⟨?level, ?others, ?flags⟩
  case level => simp [State.pinEdge_pin]
  case others =>
    intro y hy
    have hne : x.val ≠ y.val := fun h => hy (Fin.ext h.symm)
    simp [State.pinEdge_pin, hne]
  case flags =>
    intro selected n
    have hn : pinSource x = n := pinSource_eq x
    refine ⟨fun hsel himpl m => ?set, fun hnone => ?kept, ?frame⟩
    case set =>
      rw [State.pinEdge_of_selected hsel, hn]
      exact (s.withPin x dir).irqFlag_setIrqFlag_of_implemented himpl m
    case kept =>
      by_cases hsel : s.edgeSelected x dir
      · have hmissing : implementsSource (s.withPin x dir).device n = false := hnone.resolve_left (not_not_intro hsel)
        rw [State.pinEdge_of_selected hsel, hn, State.setIrqFlag_of_missing hmissing]
        rfl
      · rw [State.pinEdge_of_not_selected hsel]
        rfl
    case frame => rw [State.pinEdge_pin]; exact s.pinEdge_frame x dir

/-! ### Oscillator failure (60 R227, R245) -/

theorem Trap.level_le (t : Trap) : t.level ≤ 14 := by cases t <;> decide

/-- No trap is above the oscillator failure, so only a CPU priority of 15 is in conflict with it. -/
theorem State.hardTrapConflict_oscillator_iff (s : State) :
    s.hardTrapConflict .oscillator = true ↔ 14 < s.cpuIpl := by
  rw [State.hardTrapConflict_iff]
  constructor
  · rintro (⟨u, hu, -⟩ | ⟨-, h⟩)
    · exact absurd hu (Nat.not_lt.mpr u.level_le)
    · exact h
  · intro h
    refine .inr ⟨?_, h⟩
    have hipl := s.ipl.isLt
    cases h3 : s.ipl3
    · rw [State.cpuIpl, h3, if_neg Bool.false_ne_true] at h
      omega
    · rfl

/-- OSCFAIL is bit 1 of INTCON1. -/
theorem State.flagOscFail_eq (s : State) :
    s.flagOscFail = { s with intcon1 := s.intcon1 ||| 0x0002#16, cf := true } := rfl

/-- Settles O46: the raise that follows the flags is settled by the CPU priority alone. -/
theorem oscFailSetsItsFlags : Obligations.OscFailSetsItsFlags := by
  intro s flagged
  have hipl : flagged.cpuIpl = s.cpuIpl := rfl
  have hraise : s.oscFail = flagged.settleHardTrap .oscillator := by rw [State.oscFail, State.flagOscFail_eq]
  have hno (h : s.cpuIpl ≤ 14) : flagged.hardTrapConflict .oscillator = false := by
    rw [← Bool.not_eq_true, State.hardTrapConflict_oscillator_iff, hipl]; exact Nat.not_lt.mpr h
  rw [hraise]
  refine ⟨fun h => ?below, fun h hdue => ?atLevel, fun h => ?above⟩
  case below => exact State.settleHardTrap_next (hno (Nat.le_of_lt h)) (Nat.ne_of_lt h)
  case atLevel => exact State.settleHardTrap_at_level (hno (Nat.le_of_eq h)) hdue h
  case above =>
    exact State.settleHardTrap_of_conflict (flagged.hardTrapConflict_oscillator_iff.mpr (by rw [hipl, h]; decide))

end Sys2Proof.Machine
end

section
/-! PROOFS. The exception entry (60 R250-R256): the memory after its two pushes, the new priority, the latched INTTREG,
and what the entry leaves unchanged. -/

namespace Sys2Proof.Machine

/-! ### The memory after the pushes (60 R250, R252) -/

/-- A push to this address changes data RAM: the address is implemented, and in RAM (log 21). -/
def State.lands (s : State) (a : Word) : Prop := s.dataImpl a = true ∧ 0x0800 ≤ a.toNat

section

variable {s : State} {a : Word} (m : List Host.Cell) (v : Word)

theorem State.pushed_of_lands (h : s.lands a) : s.pushed m a v = writeWord m a.toNat v :=
  if_pos ((Bool.and_eq_true _ _).mpr ⟨h.1, decide_eq_true h.2⟩)

theorem State.pushed_of_not_lands (h : ¬s.lands a) : s.pushed m a v = m :=
  if_neg fun hb => h (((Bool.and_eq_true _ _).mp hb).imp_right of_decide_eq_true)

theorem State.wf_pushed (s : State) (a : Word) {m : List Host.Cell} (h : Memory.wf m = true) :
    Memory.wf (s.pushed m a v) = true := by
  by_cases hl : s.lands a
  · rw [State.pushed_of_lands m v hl]; exact wf_writeWord _ _ h
  · rw [State.pushed_of_not_lands m v hl]; exact h

/-- A push leaves every byte outside the word that it lands on. -/
theorem State.readByte_pushed_of_ne {b : Nat} (h : ¬(s.lands a ∧ (b = a.toNat ∨ b = a.toNat + 1))) :
    readByte (s.pushed m a v) b = readByte m b := by
  by_cases hl : s.lands a
  · have hb := not_or.mp fun hb => h ⟨hl, hb⟩
    rw [State.pushed_of_lands m v hl, readByte_writeWord_of_ne _ hb.1 hb.2]
  · rw [State.pushed_of_not_lands m v hl]

end

/-- Data RAM after the two pushes of an entry. -/
def State.framePushed (s : State) : List Host.Cell :=
  s.pushed (s.pushed s.data s.sp (frameLow s.pc)) (s.sp + 2#16) (frameHigh s.srl s.ipl3 s.pc)

section

variable {s : State}

/-- The first word is read back: the second push is to another word, also where W15 wraps. -/
theorem State.readWord_framePushed_low (hwf : Memory.wf s.data = true) (heven : s.sp.getLsbD 0 = false)
    (h : s.lands s.sp) : readWord s.framePushed s.sp.toNat = frameLow s.pc := by
  rw [even_iff_mod] at heven
  have hkept (b : Nat) (hb : b = s.sp.toNat ∨ b = s.sp.toNat + 1) :
      readByte s.framePushed b = readByte (s.pushed s.data s.sp (frameLow s.pc)) b := by
    refine State.readByte_pushed_of_ne _ _ fun hhigh => ?_
    obtain ⟨-, hhigh⟩ := hhigh
    bv_omega
  calc readWord s.framePushed s.sp.toNat
    _ = readWord (s.pushed s.data s.sp (frameLow s.pc)) s.sp.toNat :=
      readWord_congr (hkept _ (.inl rfl)) (hkept _ (.inr rfl))
    _ = frameLow s.pc := by rw [State.pushed_of_lands _ _ h, readWord_writeWord_self _ _ hwf]

theorem State.readWord_framePushed_high (hwf : Memory.wf s.data = true) (h : s.lands (s.sp + 2#16)) :
    readWord s.framePushed (s.sp + 2#16).toNat = frameHigh s.srl s.ipl3 s.pc := by
  rw [State.framePushed, State.pushed_of_lands _ _ h]
  exact readWord_writeWord_self _ _ (s.wf_pushed _ _ hwf)

/-- Every byte outside the two words stays. -/
theorem State.readByte_framePushed_of_ne {b : Nat}
    (hlow : ¬(s.lands s.sp ∧ (b = s.sp.toNat ∨ b = s.sp.toNat + 1)))
    (hhigh : ¬(s.lands (s.sp + 2#16) ∧ (b = (s.sp + 2#16).toNat ∨ b = (s.sp + 2#16).toNat + 1))) :
    readByte s.framePushed b = readByte s.data b := by
  rw [State.framePushed, State.readByte_pushed_of_ne _ _ hhigh, State.readByte_pushed_of_ne _ _ hlow]

end

/-! ### The new priority (60 R253) -/

theorem State.withIpl_ipl (s : State) (l : BitVec 3) : (s.withIpl l).ipl = l := by
  apply BitVec.eq_of_getLsbD_eq
  intro i hi
  have hmask : ∀ j < 3, (0x00E0#16).getLsbD (5 + j) = true := by decide
  rw [State.ipl, State.withIpl_sr, BitVec.getLsbD_extractLsb', getLsbD_merge, if_pos (hmask i hi),
    BitVec.getLsbD_shiftLeft, BitVec.getLsbD_setWidth]
  simp [hi, (by omega : 5 + i < 16), (by omega : i < 16)]

/-- The write of IPL<2:0> leaves every other bit of SR. -/
theorem State.withIpl_sr_bit (s : State) (l : BitVec 3) {b : Nat} (h : b < 5 ∨ 8 ≤ b) :
    (s.withIpl l).sr.getLsbD b = s.sr.getLsbD b := by
  have hmask : ∀ j < 16, j < 5 ∨ 8 ≤ j → (0x00E0#16).getLsbD j = false := by decide
  have hclear : (0x00E0#16).getLsbD b = false := by
    by_cases hb : b < 16
    · exact hmask b hb h
    · exact BitVec.getLsbD_of_ge _ _ (by omega)
  rw [State.withIpl_sr, getLsbD_merge, hclear, if_neg Bool.false_ne_true]

section

variable (s : State) {l : Nat}

/-- From level 8 on the entry sets IPL3 and takes IPL<2:0> from the level. -/
theorem State.enterLevel_of_trap (h : 8 ≤ l) : s.enterLevel l = (s.withIpl3 true).withIpl (BitVec.ofNat 3 (l - 8)) :=
  if_pos h

/-- Below level 8 the entry writes IPL<2:0> alone: 7 with nesting disabled, else the level. -/
theorem State.enterLevel_of_interrupt (h : l < 8) :
    s.enterLevel l = s.withIpl (if s.nstdis then 7#3 else BitVec.ofNat 3 l) := by
  rw [State.enterLevel, if_neg (Nat.not_le.mpr h)]
  split <;> rfl

theorem State.enterLevel_cpuIpl (h : 8 ≤ l) (h16 : l < 16) : (s.enterLevel l).cpuIpl = l := by
  have hipl3 : ((s.withIpl3 true).withIpl (BitVec.ofNat 3 (l - 8))).ipl3 = true := by
    rw [State.ipl3, State.withIpl_corcon, State.withIpl3_corcon, getLsbD_setBitTo, if_pos ⟨rfl, by decide⟩]
  rw [s.enterLevel_of_trap h, State.cpuIpl, State.withIpl_ipl, if_pos hipl3, BitVec.toNat_ofNat]
  omega

theorem State.enterLevel_ipl3 (h : l < 8) : (s.enterLevel l).ipl3 = s.ipl3 := by
  rw [s.enterLevel_of_interrupt h]; rfl

theorem State.enterLevel_ipl (h : l < 8) : (s.enterLevel l).ipl.toNat = if s.nstdis = true then 7 else l := by
  rw [s.enterLevel_of_interrupt h, State.withIpl_ipl]
  split
  · rfl
  · exact Nat.mod_eq_of_lt h

theorem State.enterLevel_sr_bit (l : Nat) {b : Nat} (h : b < 5 ∨ 8 ≤ b) :
    (s.enterLevel l).sr.getLsbD b = s.sr.getLsbD b := by
  by_cases hl : 8 ≤ l
  · rw [s.enterLevel_of_trap hl]; exact State.withIpl_sr_bit _ _ h
  · rw [s.enterLevel_of_interrupt (Nat.not_le.mp hl)]; exact State.withIpl_sr_bit _ _ h

theorem State.enterLevel_corcon_bit (l : Nat) {b : Nat} (h : b ≠ 3) :
    (s.enterLevel l).corcon.getLsbD b = s.corcon.getLsbD b := by
  by_cases hl : 8 ≤ l
  · rw [s.enterLevel_of_trap hl, State.withIpl_corcon, State.withIpl3_corcon, getLsbD_setBitTo,
      if_neg fun hb => h hb.1.symm]
  · rw [s.enterLevel_of_interrupt (Nat.not_le.mp hl), State.withIpl_corcon]

end

/-! ### INTTREG and the vector (60 R254, R255) -/

/-- ILR and VECNUM of what an interrupt's entry latches. -/
theorem inttregOf_fields {v l : Nat} (hv : v < 62) :
    (inttregOf v l).extractLsb' 8 4 = BitVec.ofNat 4 l ∧ ((inttregOf v l).extractLsb' 0 7).toNat = v - 8 := by
  constructor
  · calc (inttregOf v l).extractLsb' 8 4
      _ = (0#4 ++ BitVec.ofNat 4 l ++ 0#1).extractLsb' 1 4 := BitVec.extractLsb'_append_eq_of_le (by decide)
      _ = (0#4 ++ BitVec.ofNat 4 l).extractLsb' 0 4 := BitVec.extractLsb'_append_eq_of_le (by decide)
      _ = BitVec.ofNat 4 l := BitVec.extractLsb'_append_eq_right
  · have hlow : (inttregOf v l).extractLsb' 0 7 = BitVec.ofNat 7 (v - 8) := BitVec.extractLsb'_append_eq_right
    rw [hlow, BitVec.toNat_ofNat]
    omega

theorem State.latchInttreg_of_interrupt (s : State) {v : Nat} (l : Nat) (h : 8 ≤ v) :
    (s.latchInttreg v l).inttreg = inttregOf v l := by
  rw [State.latchInttreg, if_pos h]

/-- The handler's address has the bits 22-1 of the vector's content (30 R111). -/
theorem handlerAddress_eq (c : Word24) : handlerAddress c = c.extractLsb' 1 22 ++ 0#1 := by
  have hupper : (handlerAddress c).extractLsb' 1 22 = c.extractLsb' 1 22 := by
    apply BitVec.eq_of_getLsbD_eq
    intro i hi
    have hmask : ∀ j < 22, (0x7FFFFE#23).getLsbD (1 + j) = true := by decide
    rw [handlerAddress, evenPc, BitVec.getLsbD_extractLsb', BitVec.getLsbD_and, hmask i hi,
      BitVec.getLsbD_extractLsb', BitVec.getLsbD_extractLsb']
    simp [(by omega : 1 + i < 23)]
  rw [← hupper]
  exact (extract_append_zero (evenPc_bit _)).symm

theorem State.vectorLocation_congr {s t : State} (h : t.intcon2 = s.intcon2) (v : Nat) :
    t.vectorLocation v = s.vectorLocation v := by
  rw [State.vectorLocation, State.vectorLocation, State.altivt, State.altivt, h]

/-! ### The entry as its pushes, its writes and its four cycles (60 R250) -/

/-- W15 is even, and no register of the spec stands at an implemented push address. -/
structure State.PlainStack (s : State) : Prop where
  even : s.sp.getLsbD 0 = false
  low : s.dataImpl s.sp = true → ∀ r, placeOf s.device s.sp ≠ .sfr r
  high : s.dataImpl (s.sp + 2#16) = true → ∀ r, placeOf s.device (s.sp + 2#16) ≠ .sfr r

/-- The state after the temporary buffer is filled and the frame is pushed. -/
def State.framed (s : State) : State :=
  { s with data := s.framePushed, w := s.w.set 15 (s.sp + 4#16), tempPc := s.pc, tempSrl := s.srl }

/-- The state of an entry before its four cycles. -/
def State.entering (s : State) (v l : Nat) : State :=
  let s1 := (s.framed.enterLevel l).latchInttreg v l
  { s1 with pc := handlerAddress (readProg s1.prog (s1.vectorLocation v)), pmode := .run, irqSkid := .used }

/-- Neither the pushes nor the new priority touch the vectors or the choice of their table. -/
theorem State.entering_pc (s : State) (v l : Nat) :
    (s.entering v l).pc = handlerAddress (readProg s.prog (s.vectorLocation v)) := by
  have hloc : ((s.framed.enterLevel l).latchInttreg v l).vectorLocation v = s.vectorLocation v :=
    State.vectorLocation_congr (by simp [State.framed]) v
  have hprog : ((s.framed.enterLevel l).latchInttreg v l).prog = s.prog := by simp [State.framed]
  rw [State.entering]
  dsimp only
  rw [hloc, hprog]

/-- Before its four cycles an entry changes only what 60 R250 names: the frame, W15, the priority, INTTREG, the pc, the
mode, the temporary buffer and the skid. -/
theorem State.entering_frame (s : State) (v l : Nat) :
    s.entering v l =
      { s with
        data := s.framePushed
        w := s.w.set 15 (s.sp + 4#16)
        sr := (s.framed.enterLevel l).sr
        corcon := (s.framed.enterLevel l).corcon
        inttreg := ((s.framed.enterLevel l).latchInttreg v l).inttreg
        inttregHold := ((s.framed.enterLevel l).latchInttreg v l).inttregHold
        pc := (s.entering v l).pc
        pmode := .run
        irqSkid := .used
        tempPc := s.pc
        tempSrl := s.srl
        draws := ((s.framed.enterLevel l).latchInttreg v l).draws } := by
  rw [State.entering, State.latchInttreg_frame, State.enterLevel_frame]
  rfl

section

variable {s : State} (h : s.PlainStack) (v l : Nat)
include h

theorem State.PlainStack.pushFrame_saveTemp : s.saveTemp.pushFrame = s.framed :=
  (State.pushFrame_plain (s := s.saveTemp) h.even h.low h.high).2

theorem State.PlainStack.entered_eq : s.entered v l = (s.entering v l).ticks Config.entryCycles := by
  rw [State.entered, h.pushFrame_saveTemp, State.entering]

theorem State.PlainStack.vectorLocation_pushFrame : s.pushFrame.vectorLocation v = s.vectorLocation v :=
  State.vectorLocation_congr (by rw [(State.pushFrame_plain h.even h.low h.high).2]) v

/-- An entry changes only what 60 R250 names, and the flags of INTCON1 that its pushes set. -/
theorem State.PlainStack.enteredFlagged_eq :
    s.enteredFlagged v l =
      { s.entering v l with
        intcon1 := (s.enteredFlagged v l).intcon1
        disicnt := (s.entered v l).disicnt
        intcon2 := (s.entered v l).intcon2
        stkAge := (s.entered v l).stkAge
        mathAge := (s.entered v l).mathAge } := by
  have hticks := State.ticks_frame Config.entryCycles (s.entering v l)
  rw [← h.entered_eq] at hticks
  exact congrArg (fun x : State => { x with intcon1 := (s.enteredFlagged v l).intcon1 }) hticks

theorem State.PlainStack.enteredFlagged_data : (s.enteredFlagged v l).data = s.framePushed := by
  rw [h.enteredFlagged_eq, State.entering_frame]

theorem State.PlainStack.enteredFlagged_w : (s.enteredFlagged v l).w = s.w.set 15 (s.sp + 4#16) := by
  rw [h.enteredFlagged_eq, State.entering_frame]

theorem State.PlainStack.enteredFlagged_sr : (s.enteredFlagged v l).sr = (s.framed.enterLevel l).sr := by
  rw [h.enteredFlagged_eq, State.entering_frame]

theorem State.PlainStack.enteredFlagged_corcon : (s.enteredFlagged v l).corcon = (s.framed.enterLevel l).corcon := by
  rw [h.enteredFlagged_eq, State.entering_frame]

theorem State.PlainStack.enteredFlagged_pc :
    (s.enteredFlagged v l).pc = (readProg s.prog (s.vectorLocation v)).extractLsb' 1 22 ++ 0#1 := by
  rw [h.enteredFlagged_eq, State.entering_pc, handlerAddress_eq]

theorem State.PlainStack.enteredFlagged_pmode : (s.enteredFlagged v l).pmode = .run := by
  rw [h.enteredFlagged_eq, State.entering_frame]

theorem State.PlainStack.enteredFlagged_prog : (s.enteredFlagged v l).prog = s.prog := by
  rw [h.enteredFlagged_eq, State.entering_frame]

theorem State.PlainStack.enteredFlagged_inttreg {v : Nat} (hv : 8 ≤ v) :
    (s.enteredFlagged v l).inttreg = inttregOf v l := by
  rw [h.enteredFlagged_eq, State.entering_frame]; exact State.latchInttreg_of_interrupt _ l hv

theorem State.PlainStack.enteredFlagged_disicnt : (s.enteredFlagged v l).disicnt.toNat = s.disicnt.toNat - 4 := by
  rw [h.enteredFlagged_eq, h.entered_eq, State.ticks_disicnt, State.entering_frame]
  rfl

/-- Of what the entry does only its four cycles can change INTCON2. -/
theorem State.PlainStack.enteredFlagged_intcon2 :
    (s.enteredFlagged v l).intcon2 = ((s.entering v l).ticks Config.entryCycles).intcon2 := by
  rw [h.enteredFlagged_eq, h.entered_eq]

theorem State.PlainStack.enteredFlagged_disiActive : (s.enteredFlagged v l).disiActive =
    (s.disiActive && !(decide (1 ≤ s.disicnt.toNat) && decide (s.disicnt.toNat ≤ 4))) := by
  rw [State.disiActive, h.enteredFlagged_intcon2, ← State.disiActive, State.ticks_disiActive, State.disiActive,
    State.entering_frame]
  rfl

theorem State.PlainStack.enteredFlagged_intcon2_bit {b : Nat} (hb : b ≠ 14) :
    (s.enteredFlagged v l).intcon2.getLsbD b = s.intcon2.getLsbD b := by
  rw [h.enteredFlagged_intcon2, State.ticks_intcon2 _ _ b hb, State.entering_frame]

theorem State.PlainStack.entered_intcon1 : (s.entered v l).intcon1 = s.intcon1 := by
  rw [h.entered_eq, State.ticks_intcon1, State.entering_frame]

/-- Nothing changes but the pc, the draw counter and the fields named here. -/
theorem State.PlainStack.enteredFlagged_unchanged :
    let t := s.enteredFlagged v l
    frame { s with
      data := t.data, w := t.w, sr := t.sr, corcon := t.corcon, intcon1 := t.intcon1, inttreg := t.inttreg,
      pmode := t.pmode, disicnt := t.disicnt, intcon2 := t.intcon2, inttregHold := t.inttregHold,
      irqSkid := t.irqSkid, tempPc := t.tempPc, tempSrl := t.tempSrl, stkAge := t.stkAge, mathAge := t.mathAge } t := by
  dsimp only
  rw [frame, h.enteredFlagged_eq, State.entering_frame]

end

/-! ### The flags that the pushes set (60 R252) -/

/-- Every bit of INTCON1 after an entry: STKERR and ADDRERR are set as the checks of the pushes have it. -/
theorem State.enteredFlagged_intcon1_bit (s : State) (v l b : Nat) :
    (s.enteredFlagged v l).intcon1.getLsbD b =
      ((s.entered v l).intcon1.getLsbD b || (s.pushFrameStackBad && decide (b = 2)) ||
        (s.pushFrameUnimplemented && decide (b = 3))) := by
  have hset (v : Word) (c : Bool) (i : Nat) (hi : i < 16) :
      (if c then setBitTo v i true else v).getLsbD b = (v.getLsbD b || (c && decide (b = i))) := by
    cases c
    · simp
    · rw [if_pos rfl, getLsbD_setBitTo]
      by_cases hb : i = b
      · subst hb; simp [hi]
      · simp [hb, Ne.symm hb]
  rw [State.enteredFlagged]
  dsimp only
  rw [hset _ _ 3 (by decide), hset _ _ 2 (by decide)]

/-- The raise of a hard trap leaves every flag of INTCON1. -/
theorem State.settleHardTrap_intcon1 {s t : State} {c : Trap} (h : s.settleHardTrap c = .next t) :
    t.intcon1 = s.intcon1 := by
  unfold State.settleHardTrap at h
  split at h
  · cases h; rfl
  · split at h
    · cases h
    · cases h; rfl

/-- An entry that goes on has the flags of its pushes, whatever the settled raise of the address error leads to. -/
theorem State.takeException_intcon1 {s t : State} {v l : Nat} (h : s.takeException v l = .next t) :
    t.intcon1 = (s.enteredFlagged v l).intcon1 := by
  rw [State.takeException_eq] at h
  split at h
  · split at h
    · exact State.settleHardTrap_intcon1 h
    · cases h; rfl
  · cases h

/-- A W15 off the stack before the entry trips its first push. -/
theorem State.pushFrameStackBad_of_sp {s : State} (h : s.stackBad s.sp = true) : s.pushFrameStackBad = true := by
  rw [State.pushFrameStackBad, h, Bool.true_or, Bool.true_or]

/-! ### The statement -/

section

variable {s : State} (h : s.PlainStack) (v l : Nat)
include h

/-- With its vector implemented the entry goes on, or ends with the settled raise of the address error. -/
theorem State.PlainStack.takeException_eq (himpl : s.progImpl (s.vectorLocation v) = true) :
    s.takeException v l =
      if s.pushFrameUnimplemented then (s.enteredFlagged v l).settleHardTrap .address
      else .next (s.enteredFlagged v l) := by
  rw [State.takeException_eq, h.vectorLocation_pushFrame, if_pos himpl]

/-- Every bit of INTCON1 after the entry, by what trips. -/
theorem State.PlainStack.enteredFlagged_bit (b : Nat) :
    (s.enteredFlagged v l).intcon1.getLsbD b =
      (s.intcon1.getLsbD b || (s.pushFrameStackBad && decide (b = 2)) ||
        (s.pushFrameUnimplemented && decide (b = 3))) := by
  rw [State.enteredFlagged_intcon1_bit, h.entered_intcon1]

/-- The new CPU priority is the one that the pushed state enters. -/
theorem State.PlainStack.enteredFlagged_priority :
    (s.enteredFlagged v l).cpuIpl = (s.framed.enterLevel l).cpuIpl ∧
      (s.enteredFlagged v l).ipl3 = (s.framed.enterLevel l).ipl3 ∧
      (s.enteredFlagged v l).ipl = (s.framed.enterLevel l).ipl := by
  have hipl3 : (s.enteredFlagged v l).ipl3 = (s.framed.enterLevel l).ipl3 := by
    rw [State.ipl3, State.ipl3, h.enteredFlagged_corcon]
  have hipl : (s.enteredFlagged v l).ipl = (s.framed.enterLevel l).ipl := by
    rw [State.ipl, State.ipl, h.enteredFlagged_sr]
  exact ⟨by rw [State.cpuIpl, State.cpuIpl, hipl3, hipl], hipl3, hipl⟩

end

/-- Settles O38: the memory, the priority, INTTREG and the pc by the laws of the entry's parts, the flags by the checks
of its pushes. -/
theorem exceptionEntrySavesAndRaises : Obligations.ExceptionEntrySavesAndRaises := by
  refine ⟨?first, ?second⟩
  case first =>
    intro s v l hv hl hwf heven lo hi hlow hhigh location himpl lands missing trips
    have h : s.PlainStack := ⟨heven, hlow, hhigh⟩
    obtain ⟨hbad, hun⟩ : (s.pushFrameStackBad = true ↔ trips) ∧ (s.pushFrameUnimplemented = true ↔ missing) :=
      State.pushFrame_checks heven hlow hhigh
    have hanswer := h.takeException_eq v l himpl
    have hbit := h.enteredFlagged_bit v l
    obtain ⟨hcpuIpl, hipl3, hipl⟩ := h.enteredFlagged_priority v l
    refine ⟨s.enteredFlagged v l, fun hm => ?missing, fun hm => ?goesOn, fun hlo => ?lowWord, fun hhi => ?highWord,
      fun a hlo hhi => ?otherBytes, ?sp, fun d hd => ?registers, fun ht => ?stkerr, fun ht => ?noStkerr,
      fun hm => ?addrerr, fun hm => ?noAddrerr, fun b h2 h3 => ?otherFlags, fun hl8 => ?trapLevel, fun hl8 => ?level,
      fun b hb => ?srBits, fun b hb => ?corconBits, fun hv8 => ?inttreg, h.enteredFlagged_pc v l,
      h.enteredFlagged_pmode v l, h.enteredFlagged_disicnt v l, h.enteredFlagged_disiActive v l,
      fun b hb => h.enteredFlagged_intcon2_bit v l hb, h.enteredFlagged_unchanged v l, fun a => ?prog⟩
    case missing => rw [hanswer, if_pos (hun.mpr hm)]
    case goesOn => rw [hanswer, if_neg (mt hun.mp hm)]
    case lowWord => rw [h.enteredFlagged_data]; exact State.readWord_framePushed_low hwf heven hlo
    case highWord => rw [h.enteredFlagged_data]; exact State.readWord_framePushed_high hwf hhi
    case otherBytes => rw [h.enteredFlagged_data]; exact State.readByte_framePushed_of_ne hlo hhi
    case sp => rw [State.sp, h.enteredFlagged_w]; exact Vector.getElem_set_self _
    case registers =>
      have hne : 15 ≠ d.toNat := fun hd15 => hd (BitVec.eq_of_toNat_eq hd15.symm)
      simp only [State.getW, h.enteredFlagged_w]
      exact Vector.getElem_set_ne _ _ hne
    case stkerr => rw [State.trapFlag, hbit, hbad.mpr ht]; simp [Trap.flagBit]
    case noStkerr =>
      rw [State.trapFlag, hbit, Bool.eq_false_iff.mpr (mt hbad.mp ht)]; simp [Trap.flagBit, State.trapFlag]
    case addrerr => rw [State.trapFlag, hbit, hun.mpr hm]; simp [Trap.flagBit]
    case noAddrerr =>
      rw [State.trapFlag, hbit, Bool.eq_false_iff.mpr (mt hun.mp hm)]; simp [Trap.flagBit, State.trapFlag]
    case otherFlags => rw [hbit]; simp [h2, h3]
    case trapLevel => rw [hcpuIpl]; exact State.enterLevel_cpuIpl _ hl8 hl
    case level =>
      rw [hipl3, hipl]
      exact ⟨State.enterLevel_ipl3 _ hl8, State.enterLevel_ipl _ hl8⟩
    case srBits => rw [h.enteredFlagged_sr]; exact State.enterLevel_sr_bit _ l hb
    case corconBits => rw [h.enteredFlagged_corcon]; exact State.enterLevel_corcon_bit _ l hb
    case inttreg => rw [h.enteredFlagged_inttreg l hv8]; exact inttregOf_fields hv
    case prog => rw [h.enteredFlagged_prog]
  case second =>
    intro s t v l hentry hoff
    have hbad : s.pushFrameStackBad = true := State.pushFrameStackBad_of_sp ((s.stackBad_iff _).mpr hoff)
    rw [State.trapFlag, State.takeException_intcon1 hentry, State.enteredFlagged_intcon1_bit, hbad]
    simp [Trap.flagBit]

end Sys2Proof.Machine
end

section
/-! PROOFS. The state after reset requests nothing (70 R302): no flag is set, so arbitration finds neither a trap nor an
interrupt. -/

namespace Sys2Proof.Machine

/-! ### Arbitration where no flag is set (60 R226, R240, R243) -/

/-- Only a trap with its flag set is found. -/
theorem State.topTrap_eq_none_of_no_flag {s : State} (h : ∀ t, s.trapFlag t = false) : s.topTrap = none :=
  s.topTrap_eq_none_iff.mpr fun t => by rw [State.trapRequested, h t, Bool.false_and]

/-- Only a source with its flag set is found. -/
theorem State.topIrq_eq_none_of_no_flag {s : State} (h : ∀ n, s.irqFlag n = false) (ipc : Vector Word 11) :
    s.topIrq ipc = none := by
  rw [Option.eq_none_iff_forall_ne_some]
  intro r hr
  obtain ⟨n, ⟨-, hreq⟩, -, -⟩ := State.topIrq_eq_some hr
  obtain ⟨hflag, -⟩ := (s.irqRequested_iff ipc n).mp hreq
  exact Bool.false_ne_true ((h n).symm.trans hflag)

/-- Where neither a trap nor an interrupt has its flag set, nothing is requested, whatever the priorities. -/
theorem State.arbitrate_eq_none_of_no_flag {s : State} (htrap : ∀ t, s.trapFlag t = false)
    (hirq : ∀ n, s.irqFlag n = false) (ipc : Vector Word 11) : s.arbitrate ipc = none :=
  (State.arbitrate_of_no_trap ipc (State.topTrap_eq_none_of_no_flag htrap)).trans
    (State.topIrq_eq_none_of_no_flag hirq ipc)

/-! ### The flags and the priority after reset (10 R69) -/

theorem reset_cpuIpl : State.reset.cpuIpl = 0 := by decide

theorem reset_trapFlag (t : Trap) : State.reset.trapFlag t = false := BitVec.getLsbD_zero

/-- No source is pending after reset; beyond IFS2 there is no flag at all. -/
theorem reset_irqFlag (n : Nat) : State.reset.irqFlag n = false := by
  have hifs : regAt State.reset.ifs (n / 16) = 0 := by
    by_cases hn : n / 16 < 3
    · exact regAt_zeros ⟨n / 16, hn⟩
    · rw [regAt, Vector.getElem?_eq_none (Nat.le_of_not_lt hn)]
      rfl
  rw [State.irqFlag, hifs]
  exact BitVec.getLsbD_zero

/-- Every trap level is above the CPU priority after reset. -/
theorem reset_cpuIpl_lt_level (t : Trap) : State.reset.cpuIpl < t.level := by
  rw [reset_cpuIpl]
  exact Nat.lt_of_lt_of_le (by decide) t.level_ge

/-! ### The statement -/

/-- Settles O60: no flag is set after reset, so arbitration returns none; every other value is read off `State.reset`. -/
theorem resetLeavesNothingRequested : Obligations.ResetLeavesNothingRequested := by
  refine ⟨reset_cpuIpl, fun k => ⟨regAt_zeros k, regAt_zeros k⟩, ?priorities, ?nstdis, ?altivt, ?disi, ?disicnt,
    fun t _ => ⟨reset_trapFlag t, reset_cpuIpl_lt_level t⟩, fun _ => BitVec.getLsbD_zero, ?addresses, ?pc, ?sp,
    State.arbitrate_eq_none_of_no_flag reset_trapFlag reset_irqFlag _⟩
  case priorities => decide
  case nstdis => decide
  case altivt => decide
  case disi => decide
  case disicnt => rfl
  case addresses => rfl
  case pc => rfl
  case sp => rfl

end Sys2Proof.Machine
end
